-- ==== Sys2Proof/Word.lean ====
section
/-! DEFINITION. The value types of the block (spec 00_scope.md section 6): bytes, sixteen-bit unsigned
quantities, and finite byte sequences. Every length, index, cursor and timer value is a `Nat`. -/

namespace Sys2Proof

/-- A byte: an unsigned integer in 0..255, bit 7 the most significant (R5 `BYTE_BITS` = 8). -/
abbrev Byte := BitVec 8

/-- `u16`: an unsigned integer in 0..65535. -/
abbrev U16 := BitVec 16

/-- `bytes`: a finite sequence of bytes, index 0 first. Index 0 is the first byte on the wire (R34). -/
abbrev Bytes := List Byte

end Sys2Proof
end

