-- ==== Sys2Proof/Config.lean ====
section
/-! DEFINITION. What is fixed for an instance from reset to reset: the FIXED parameters of R5, the record
`CFG` of R12 with the OPEN parameters of R5, and the one free value of the model (a transport answer the
environment has not scripted). -/

namespace Sys2Proof

/-- The dispatch context (R89): CONTROL answers every request with an ack, MOTOR decodes responses. -/
inductive Ctx where
  | control
  | motor
deriving DecidableEq, Repr, Inhabited

/-- The transport's answer to an `open` or a `write` (R129, R134). -/
inductive IoResult where
  | ok
  | fail
deriving DecidableEq, Repr, Inhabited

/-- A positive rational `num / den`, the type of the display parameters `SCALE_*` of R5. -/
structure Scale where
  num : Nat
  den : Nat
deriving DecidableEq, Repr

/-- `CFG` (R12), the only control state of the block, together with the OPEN parameters of R5 that are no
operand of an operation ("a field of its configuration record", assumption 9). No operation but RESET writes it. -/
structure Cfg where
  /-- `CFG.CTX`. -/
  ctx : Ctx
  /-- `CFG.ACK_STOP`, payload of the ack to 0x80; length at least 2. -/
  ackStop : Bytes
  /-- `CFG.ACK_RUN`, payload of the ack to 0x81. -/
  ackRun : Bytes
  /-- `CFG.ACK_SET_SPEED`, payload of the ack to 0x82. -/
  ackSetSpeed : Bytes
  /-- `CFG.ACK_GEAR`, payload of the ack to 0x83: speed gear, then time gear. -/
  ackGear : Bytes
  /-- `CFG.ACK_VERSION`, payload of the ack to 0x20, meant as ASCII and not checked. -/
  ackVersion : Bytes
  /-- `CFG.SYN_STATUS`. -/
  synStatus : Byte
  /-- `CFG.SYN_SPEED`. -/
  synSpeed : U16
  /-- `CFG.SYN_VOLTAGE`. -/
  synVoltage : U16
  /-- `CFG.SYN_TEMP`. -/
  synTemp : Byte
  /-- `CFG.SYN_POWER`. -/
  synPower : U16
  /-- `RB_CAP`; `none` is infinity, the default (R86). -/
  rbCap : Option Nat
  /-- `MAX_FRAME_LEN`; `none` is infinity, the default (D30). -/
  maxFrameLen : Option Nat
  /-- `MAX_STEPS`; `none` is infinity, the default (R126). -/
  maxSteps : Option Nat
  /-- `TICK_PERIOD` in microseconds; no rule reads it (R5, R127). -/
  tickPeriod : Nat
  /-- `SCALE_SPEED`; read by the display collaborator only, by no rule (R5, R170). -/
  scaleSpeed : Scale
  /-- `SCALE_VOLTAGE`. -/
  scaleVoltage : Scale
  /-- `SCALE_TEMP`. -/
  scaleTemp : Scale
  /-- `SCALE_POWER`. -/
  scalePower : Scale
deriving DecidableEq, Repr

/-- `MAX_PAYLOAD_LEN` = `MAX_FRAME_LEN` - 6 (D30). No meaning reads it: the spec states no effect of the limit,
and R71 calls the encoder total (assumption 18). DESIGN CHOICE (assumption 18): 0 for a `MAX_FRAME_LEN` below
6, where the difference is no natural number and the spec is silent. -/
def Cfg.maxPayloadLen (c : Cfg) : Option Nat := c.maxFrameLen.map (· - 6)

namespace Config

/-- `HEADER` = 10 02, FIXED (R5, R47). -/
def header : Bytes := [0x10, 0x02]

/-- `TRAILER` = 10 03, FIXED (R5, R47). -/
def trailer : Bytes := [0x10, 0x03]

/-- The byte value the reassembler searches a header by (R79). -/
def headerByte : Byte := 0x10

/-- The second header byte (R81). -/
def headerSecond : Byte := 0x02

/-- The byte value the reassembler ends a candidate at (R83). -/
def trailerByte : Byte := 0x03

/-- `MIN_FRAME_LEN` = 8, FIXED (R5, R47). -/
def minFrameLen : Nat := 8

/-- `MIN_CANDIDATE_LEN` = 4, FIXED (R5, R78, R85). -/
def minCandidateLen : Nat := 4

/-- FREE VALUE (assumption 2): the transport's answer to a write the environment has scripted no answer
for. R134: "The result is an input the block does not control". Nothing can evaluate it. -/
opaque freeAnswer : Nat → IoResult

/-- DESIGN CHOICE (assumption 1, unsafe): the configuration held in `State.reset`. The spec gives `CFG` no
reset value (R24: supplied with the reset); a RESET event replaces it. -/
def cfgAtReset : Cfg where
  ctx := .control
  ackStop := [0x00, 0x00]
  ackRun := [0x00, 0x00]
  ackSetSpeed := [0x00, 0x00]
  ackGear := [0x00, 0x00]
  ackVersion := [0x00, 0x00]
  synStatus := 0x00
  synSpeed := 0
  synVoltage := 0
  synTemp := 0x00
  synPower := 0
  rbCap := none
  maxFrameLen := none
  maxSteps := none
  tickPeriod := 1000
  scaleSpeed := ⟨1, 1⟩
  scaleVoltage := ⟨1, 1⟩
  scaleTemp := ⟨1, 1⟩
  scalePower := ⟨1, 1⟩

end Config

end Sys2Proof
end

