-- ==== Sys2Proof/Syntax.lean ====
section
/-! DEFINITION. The instructions of the block: one constructor of `Instr` per row of
spec/opcode_table.json (12 FRAME rows, 15 EVENT rows), with the operand types the spec names, and the
forms in which an instruction reaches the machine (`InWord`, R60 and R62). -/

namespace Sys2Proof

/-- The value `Frame` (R23): header, trailer and checksum are not stored in it. -/
structure Frame where
  command : Byte
  payload : Bytes
deriving DecidableEq, Repr

/-- A step record of an exchange (R18). `handler` and `description` are opaque: no rule reads them. -/
structure ExchangeStep where
  request : Frame
  handler : Nat
  description : Bytes
  timeout : Nat
deriving DecidableEq, Repr

/-- The four `FrameError` values of CODEC.DECODE (R72). -/
inductive FrameError where
  | tooShort
  | badHeader
  | badTrailer
  | badChecksum
deriving DecidableEq, Repr

/-- The six commands of the command table (R49). -/
inductive Command where
  | stop
  | run
  | setSpeed
  | gear
  | version
  | telemetry
deriving DecidableEq, Repr

/-- One constructor per row of spec/opcode_table.json. A FRAME row's only operand is the payload of the
received frame; its command byte and its context are the row's own. -/
inductive Instr where
  /-- CTRL.STOP, R92. -/
  | ctrlStop (payload : Bytes)
  /-- CTRL.RUN, R93. -/
  | ctrlRun (payload : Bytes)
  /-- CTRL.SET_SPEED, R94. -/
  | ctrlSetSpeed (payload : Bytes)
  /-- CTRL.GEAR, R95. -/
  | ctrlGear (payload : Bytes)
  /-- CTRL.VERSION, R96. -/
  | ctrlVersion (payload : Bytes)
  /-- CTRL.TELEMETRY, R97. -/
  | ctrlTelemetry (payload : Bytes)
  /-- MOTOR.STOP, R98. -/
  | motorStop (payload : Bytes)
  /-- MOTOR.RUN, R99. -/
  | motorRun (payload : Bytes)
  /-- MOTOR.SET_SPEED, R100. -/
  | motorSetSpeed (payload : Bytes)
  /-- MOTOR.GEAR, R101. -/
  | motorGear (payload : Bytes)
  /-- MOTOR.VERSION, R102. -/
  | motorVersion (payload : Bytes)
  /-- MOTOR.TELEMETRY, R103. -/
  | motorTelemetry (payload : Bytes)
  /-- RESET, input event 0x00, R166. -/
  | reset (cfg : Cfg)
  /-- CONN.OPEN, input event 0x01, R129. -/
  | connOpen (portName : Bytes) (baudRate : Nat) (result : IoResult)
  /-- CONN.CLOSE, input event 0x02, R131. -/
  | connClose
  /-- RX, input event 0x03, R135. -/
  | rx (chunk : Bytes)
  /-- CONN.SEND, input event 0x04, R132. -/
  | connSend (command : Byte) (payload : Bytes)
  /-- XCHG.START, input event 0x05, R112. -/
  | xchgStart (steps : List ExchangeStep)
  /-- TICK, input event 0x06, R120. -/
  | tick
  /-- CKSUM.COMPUTE, internal operation 0x10, R67. -/
  | cksumCompute (b : Bytes)
  /-- CODEC.ENCODE, internal operation 0x11, R71. -/
  | codecEncode (command : Byte) (payload : Bytes)
  /-- CODEC.DECODE, internal operation 0x12, R72. -/
  | codecDecode (raw : Bytes)
  /-- RSM.FEED, internal operation 0x13, R77. -/
  | rsmFeed (chunk : Bytes)
  /-- DISP.DISPATCH, internal operation 0x14, R90. -/
  | dispDispatch (frame : Frame)
  /-- XCHG.RESPONSE, internal operation 0x15, R115. -/
  | xchgResponse (frame : Frame)
  /-- XCHG.TIMEOUT, internal operation 0x16, R116. -/
  | xchgTimeout
  /-- XCHG.CANCEL, internal operation 0x17, R118. -/
  | xchgCancel
deriving DecidableEq, Repr

/-- The arguments of an event or operation. The spec gives the code a number and the arguments no wire
form ("nothing on the wire carries them", R62), so they are values, not bits (assumption 4). -/
inductive EventArgs where
  | none
  | cfg (cfg : Cfg)
  | port (portName : Bytes) (baudRate : Nat) (result : IoResult)
  | bytes (b : Bytes)
  | command (command : Byte) (payload : Bytes)
  | steps (steps : List ExchangeStep)
  | frame (frame : Frame)
deriving DecidableEq, Repr

/-- What can be presented to the machine, in the two formats of R60: an EVENT (a code and its arguments)
or a FRAME (the bytes of one candidate). -/
inductive InWord where
  | event (code : Byte) (args : EventArgs)
  | frame (raw : Bytes)
deriving DecidableEq, Repr

/-- The instruction is one of the seven input events of R62, the only ones the environment presents. -/
def Instr.isInput : Instr → Bool
  | .reset _ | .connOpen _ _ _ | .connClose | .rx _ | .connSend _ _ | .xchgStart _ | .tick => true
  | .ctrlStop _ | .ctrlRun _ | .ctrlSetSpeed _ | .ctrlGear _ | .ctrlVersion _ | .ctrlTelemetry _ => false
  | .motorStop _ | .motorRun _ | .motorSetSpeed _ | .motorGear _ | .motorVersion _ | .motorTelemetry _ => false
  | .cksumCompute _ | .codecEncode _ _ | .codecDecode _ | .rsmFeed _ | .dispDispatch _ => false
  | .xchgResponse _ | .xchgTimeout | .xchgCancel => false

end Sys2Proof
end

