-- ==== Sys2Proof/Machine/Codec.lean ====
section
/-! DEFINITION. The pure byte-level functions of the block: CKSUM.COMPUTE (R67), CODEC.ENCODE (R71) and
CODEC.DECODE (R72). They read and write no state. -/

namespace Sys2Proof

/-- CKSUM.COMPUTE, the spec's `sum8` (R67): an eight-bit accumulator, the carry out of bit 7 discarded. -/
def sum8 (b : Bytes) : Byte := b.foldl (fun acc x => acc + x) 0

/-- What the checksum of a frame is computed over (R68): everything that precedes it. -/
def frameSpan (command : Byte) (payload : Bytes) : Bytes := Config.header ++ [command] ++ payload

/-- CODEC.ENCODE (R71): total, no check of the command byte or of the payload's length (R76). -/
def encodeFrame (command : Byte) (payload : Bytes) : Bytes :=
  frameSpan command payload ++ [sum8 (frameSpan command payload)] ++ Config.trailer

/-- CODEC.DECODE (R72): the four checks in the order of R73; the payload is `raw[3 : n-3]` (R74). -/
def decodeFrame (raw : Bytes) : Except FrameError Frame :=
  if raw.length < Config.minFrameLen then .error .tooShort
  else if raw.take 2 ≠ Config.header then .error .badHeader
  else if raw.drop (raw.length - 2) ≠ Config.trailer then .error .badTrailer
  else if raw[raw.length - 3]? ≠ some (sum8 (raw.take (raw.length - 3))) then .error .badChecksum
  else .ok ⟨raw.getD 2 0, (raw.take (raw.length - 3)).drop 3⟩

end Sys2Proof
end

