-- ==== Sys2Proof/WellFormed.lean ====
section
/-! DEFINITION. Which instructions are well formed: the operand conditions the spec puts on an instruction
taken by itself. Conditions that need the state (the context, an open port, the limits) are in the
meanings. -/

namespace Sys2Proof

/-- A payload of a valid frame has at least 2 bytes (R47, R74). -/
def payloadOk (p : Bytes) : Bool := decide (2 ≤ p.length)

/-- A step record waits at least one tick (R18, R126 (c)). -/
def ExchangeStep.ok (st : ExchangeStep) : Bool := decide (1 ≤ st.timeout)

/-- `SCALE_*` are positive rationals (R5). -/
def Scale.ok (r : Scale) : Bool := decide (0 < r.num) && decide (0 < r.den)

/-- The legal values of R12: every `ACK_*` at least 2 bytes; the scales positive (R5). -/
def Cfg.ok (c : Cfg) : Bool :=
  payloadOk c.ackStop && payloadOk c.ackRun && payloadOk c.ackSetSpeed && payloadOk c.ackGear &&
    payloadOk c.ackVersion && c.scaleSpeed.ok && c.scaleVoltage.ok && c.scaleTemp.ok && c.scalePower.ok

/-- The operand conditions of each row: a received frame has passed CODEC.DECODE (R60, R90), a step table
has 1..N steps with timeouts of at least 1 (R126), a configuration is legal (R12). -/
def Instr.wellFormed : Instr → Bool
  | .ctrlStop p | .ctrlRun p | .ctrlSetSpeed p | .ctrlGear p | .ctrlVersion p | .ctrlTelemetry p => payloadOk p
  | .motorStop p | .motorRun p | .motorSetSpeed p | .motorGear p | .motorVersion p | .motorTelemetry p => payloadOk p
  | .reset c => c.ok
  | .xchgStart steps => !steps.isEmpty && steps.all ExchangeStep.ok
  | .dispDispatch f | .xchgResponse f => payloadOk f.payload
  | .connOpen _ _ _ | .connClose | .rx _ | .connSend _ _ | .tick => true
  | .cksumCompute _ | .codecEncode _ _ | .codecDecode _ | .rsmFeed _ => true
  | .xchgTimeout | .xchgCancel => true

end Sys2Proof
end

