-- ==== Sys2Proof/Decode.lean ====
section
/-! DEFINITION. The decoder, total on every `InWord` and rejecting by name, and after it the encoder. A
FRAME word is decoded by CODEC.DECODE, its command byte and the context (R60, R61); an EVENT word by its
code (R62). -/

namespace Sys2Proof

/-- Why a word is no instruction. The `frame` and `unknownCommand` cases are the errors R142 to R146, which
PROCESS reports; the other two are encodings that R62 does not list. -/
inductive DecodeError where
  | frame (e : FrameError)
  | unknownCommand (command : Byte)
  | unknownEvent (code : Byte)
  | wrongArguments (code : Byte)
deriving DecidableEq, Repr

/-- The command byte of a command (R49). -/
def Command.code : Command → Byte
  | .stop => 0x80
  | .run => 0x81
  | .setSpeed => 0x82
  | .gear => 0x83
  | .version => 0x20
  | .telemetry => 0x21

/-- The command of a command byte; all eight bits are compared, 250 values are unassigned (R49, R56). -/
def Command.ofByte (b : Byte) : Option Command :=
  if b = 0x80 then some .stop
  else if b = 0x81 then some .run
  else if b = 0x82 then some .setSpeed
  else if b = 0x83 then some .gear
  else if b = 0x20 then some .version
  else if b = 0x21 then some .telemetry
  else none

/-- The FRAME row of a command in a context (R60); the payload never selects it (R61). -/
def frameRow (ctx : Ctx) (c : Command) (payload : Bytes) : Instr :=
  match ctx, c with
  | .control, .stop => .ctrlStop payload
  | .control, .run => .ctrlRun payload
  | .control, .setSpeed => .ctrlSetSpeed payload
  | .control, .gear => .ctrlGear payload
  | .control, .version => .ctrlVersion payload
  | .control, .telemetry => .ctrlTelemetry payload
  | .motor, .stop => .motorStop payload
  | .motor, .run => .motorRun payload
  | .motor, .setSpeed => .motorSetSpeed payload
  | .motor, .gear => .motorGear payload
  | .motor, .version => .motorVersion payload
  | .motor, .telemetry => .motorTelemetry payload

/-- Decoding a FRAME word: CODEC.DECODE, then the row of its command in the context (R60). -/
def decodeFrameWord (ctx : Ctx) (raw : Bytes) : Except DecodeError Instr :=
  match decodeFrame raw with
  | .error e => .error (.frame e)
  | .ok f =>
    match Command.ofByte f.command with
    | some c => .ok (frameRow ctx c f.payload)
    | none => .error (.unknownCommand f.command)

/-- Decoding an EVENT word: the code of R62, all eight bits compared, and arguments of the kind that R62
lists for it. -/
def decodeEvent (code : Byte) (args : EventArgs) : Except DecodeError Instr :=
  if code = 0x00 then match args with
    | .cfg c => .ok (.reset c)
    | _ => .error (.wrongArguments code)
  else if code = 0x01 then match args with
    | .port p b r => .ok (.connOpen p b r)
    | _ => .error (.wrongArguments code)
  else if code = 0x02 then match args with
    | .none => .ok .connClose
    | _ => .error (.wrongArguments code)
  else if code = 0x03 then match args with
    | .bytes b => .ok (.rx b)
    | _ => .error (.wrongArguments code)
  else if code = 0x04 then match args with
    | .command c p => .ok (.connSend c p)
    | _ => .error (.wrongArguments code)
  else if code = 0x05 then match args with
    | .steps st => .ok (.xchgStart st)
    | _ => .error (.wrongArguments code)
  else if code = 0x06 then match args with
    | .none => .ok .tick
    | _ => .error (.wrongArguments code)
  else if code = 0x10 then match args with
    | .bytes b => .ok (.cksumCompute b)
    | _ => .error (.wrongArguments code)
  else if code = 0x11 then match args with
    | .command c p => .ok (.codecEncode c p)
    | _ => .error (.wrongArguments code)
  else if code = 0x12 then match args with
    | .bytes b => .ok (.codecDecode b)
    | _ => .error (.wrongArguments code)
  else if code = 0x13 then match args with
    | .bytes b => .ok (.rsmFeed b)
    | _ => .error (.wrongArguments code)
  else if code = 0x14 then match args with
    | .frame f => .ok (.dispDispatch f)
    | _ => .error (.wrongArguments code)
  else if code = 0x15 then match args with
    | .frame f => .ok (.xchgResponse f)
    | _ => .error (.wrongArguments code)
  else if code = 0x16 then match args with
    | .none => .ok .xchgTimeout
    | _ => .error (.wrongArguments code)
  else if code = 0x17 then match args with
    | .none => .ok .xchgCancel
    | _ => .error (.wrongArguments code)
  else .error (.unknownEvent code)

/-- The decoder: total, in the context `CFG.CTX` of the instance (R60, R62). -/
def decode (ctx : Ctx) : InWord → Except DecodeError Instr
  | .event code args => decodeEvent code args
  | .frame raw => decodeFrameWord ctx raw

/-- The encoder: the wire image of a received frame (R47, R70), or an event's code and arguments (R62). -/
def encode : Instr → InWord
  | .ctrlStop p => .frame (encodeFrame 0x80 p)
  | .ctrlRun p => .frame (encodeFrame 0x81 p)
  | .ctrlSetSpeed p => .frame (encodeFrame 0x82 p)
  | .ctrlGear p => .frame (encodeFrame 0x83 p)
  | .ctrlVersion p => .frame (encodeFrame 0x20 p)
  | .ctrlTelemetry p => .frame (encodeFrame 0x21 p)
  | .motorStop p => .frame (encodeFrame 0x80 p)
  | .motorRun p => .frame (encodeFrame 0x81 p)
  | .motorSetSpeed p => .frame (encodeFrame 0x82 p)
  | .motorGear p => .frame (encodeFrame 0x83 p)
  | .motorVersion p => .frame (encodeFrame 0x20 p)
  | .motorTelemetry p => .frame (encodeFrame 0x21 p)
  | .reset c => .event 0x00 (.cfg c)
  | .connOpen p b r => .event 0x01 (.port p b r)
  | .connClose => .event 0x02 .none
  | .rx b => .event 0x03 (.bytes b)
  | .connSend c p => .event 0x04 (.command c p)
  | .xchgStart st => .event 0x05 (.steps st)
  | .tick => .event 0x06 .none
  | .cksumCompute b => .event 0x10 (.bytes b)
  | .codecEncode c p => .event 0x11 (.command c p)
  | .codecDecode b => .event 0x12 (.bytes b)
  | .rsmFeed b => .event 0x13 (.bytes b)
  | .dispDispatch f => .event 0x14 (.frame f)
  | .xchgResponse f => .event 0x15 (.frame f)
  | .xchgTimeout => .event 0x16 .none
  | .xchgCancel => .event 0x17 .none

/-- The bits spec/opcode_table.json gives an instruction's row: the width and the value of `match` (R60,
R62). -/
def Instr.tableRow : Instr → Nat × Nat
  | .ctrlStop _ | .motorStop _ => (24, 0x100280)
  | .ctrlRun _ | .motorRun _ => (24, 0x100281)
  | .ctrlSetSpeed _ | .motorSetSpeed _ => (24, 0x100282)
  | .ctrlGear _ | .motorGear _ => (24, 0x100283)
  | .ctrlVersion _ | .motorVersion _ => (24, 0x100220)
  | .ctrlTelemetry _ | .motorTelemetry _ => (24, 0x100221)
  | .reset _ => (8, 0x00)
  | .connOpen _ _ _ => (8, 0x01)
  | .connClose => (8, 0x02)
  | .rx _ => (8, 0x03)
  | .connSend _ _ => (8, 0x04)
  | .xchgStart _ => (8, 0x05)
  | .tick => (8, 0x06)
  | .cksumCompute _ => (8, 0x10)
  | .codecEncode _ _ => (8, 0x11)
  | .codecDecode _ => (8, 0x12)
  | .rsmFeed _ => (8, 0x13)
  | .dispDispatch _ => (8, 0x14)
  | .xchgResponse _ => (8, 0x15)
  | .xchgTimeout => (8, 0x16)
  | .xchgCancel => (8, 0x17)

/-- The bits of a word that the table numbers: an event's code, or the big-endian concatenation of frame
bytes 0, 1, 2 (R60). -/
def InWord.tableBits : InWord → Nat × Nat
  | .event code _ => (8, code.toNat)
  | .frame raw =>
    (24, (raw.getD 0 0).toNat * 65536 + (raw.getD 1 0).toNat * 256 + (raw.getD 2 0).toNat)

/-- The context a FRAME row belongs to (the table's `fields.context`); an EVENT row has none (R60). -/
def Instr.context : Instr → Option Ctx
  | .ctrlStop _ | .ctrlRun _ | .ctrlSetSpeed _ | .ctrlGear _ | .ctrlVersion _ | .ctrlTelemetry _ => some .control
  | .motorStop _ | .motorRun _ | .motorSetSpeed _ | .motorGear _ | .motorVersion _ | .motorTelemetry _ => some .motor
  | .reset _ | .connOpen _ _ _ | .connClose | .rx _ | .connSend _ _ | .xchgStart _ | .tick => none
  | .cksumCompute _ | .codecEncode _ _ | .codecDecode _ | .rsmFeed _ | .dispDispatch _ => none
  | .xchgResponse _ | .xchgTimeout | .xchgCancel => none

/-- The word is an input event of R62 (codes 0x00 to 0x06), the only kind the environment presents. -/
def InWord.isInput : InWord → Bool
  | .event code _ => decide (code.toNat ≤ 6)
  | .frame _ => false

/-- The table's own word completed to an instruction: the least well-formed operand, every byte of it zero
(assumption 5). -/
def leastArgs (code : Byte) : EventArgs :=
  if code = 0x00 then .cfg Config.cfgAtReset
  else if code = 0x01 then .port [] 0 .ok
  else if code = 0x05 then .steps [⟨⟨0x00, [0x00, 0x00]⟩, 0, [], 1⟩]
  else if code = 0x04 ∨ code = 0x11 then .command 0x00 []
  else if code = 0x14 ∨ code = 0x15 then .frame ⟨0x00, [0x00, 0x00]⟩
  else if code = 0x03 ∨ code = 0x10 ∨ code = 0x12 ∨ code = 0x13 then .bytes []
  else .none

/-- The eight payload bytes of zero that complete a FRAME row's 24-bit word, enough for every schema of
R50. -/
def zeroPayload : Bytes := [0x00, 0x00, 0x00, 0x00, 0x00, 0x00, 0x00, 0x00]

/-- The bytes of a FRAME word: frame bytes 0, 1, 2 from bits 23..16, 15..8, 7..0 (R60), a payload of zeros,
and the checksum and trailer that R47 gives such a frame. -/
def frameOfTableWord (w : Nat) : Bytes :=
  let span := [BitVec.ofNat 8 (w / 65536), BitVec.ofNat 8 (w / 256), BitVec.ofNat 8 w] ++ zeroPayload
  span ++ [sum8 span] ++ Config.trailer

/-- A table word as the machine is given it: 8 bits are an event code (R62), 24 bits the head of a frame
(R60); the table has no other width. -/
def tableWord (nbits w : Nat) : Option InWord :=
  if nbits = 8 then some (.event (BitVec.ofNat 8 w) (leastArgs (BitVec.ofNat 8 w)))
  else if nbits = 24 then some (.frame (frameOfTableWord w))
  else none

/-- What the decoder gives for a word of spec/opcode_table.json, in the context of `State.reset`. A FRAME
word names two rows, one per context (R60), and a word alone cannot choose between them (assumption 5). -/
def decodeTableWord (nbits w : Nat) : Option Instr :=
  match tableWord nbits w with
  | none => none
  | some word =>
    match decode Config.cfgAtReset.ctx word with
    | .ok i => some i
    | .error _ => none

end Sys2Proof
end

