-- ==== Sys2Proof/Machine/State.lean ====
section
/-! DEFINITION. The state of one instance of the block (spec 10_state.md), its output events (R63), the
reasons a step can stop, and the state after reset (R24). -/

namespace Sys2Proof.Machine

/-- The three colours of the status light (R20, R104). -/
inductive Colour where
  | red
  | green
  | blue
deriving DecidableEq, Repr

/-- `DS.light` (R20), four-valued: `NONE` before any status code has set it. -/
inductive Light where
  | none
  | lit (colour : Colour)
deriving DecidableEq, Repr

/-- The error classes of R141. -/
inductive ErrorClass where
  | tooShort
  | badHeader
  | badTrailer
  | badChecksum
  | unknownCommand
  | exchangeTimeout
  | transportError
  | unknownStatus
  | shortPayload
deriving DecidableEq, Repr

/-- The info an `EV_DIAG` records (R141, column "info recorded"). -/
inductive DiagInfo where
  | candidate (raw : Bytes)
  | command (command : Byte)
  | stepIndex (index : Nat)
  | status (code : Byte)
  | payloadLength (command : Byte) (length : Nat)
deriving DecidableEq, Repr

/-- The operation an `EV_WARN` names (R148). -/
inductive TransportOp where
  | openPort
  | send
  | start
  | ack
  | exchangeStep
deriving DecidableEq, Repr

/-- The detail an `EV_WARN` gives (R91, R112, R113, R129, R132). -/
inductive WarnDetail where
  | alreadyOpen
  | ioError
  | portClosed
  | command (command : Byte)
  | stepIndex (index : Nat)
deriving DecidableEq, Repr

/-- The field and value of an `EV_DISPLAY` (R108). -/
inductive DisplayUpdate where
  | status (code : Byte)
  | speed (value : U16)
  | voltage (value : U16)
  | temperature (value : Byte)
  | power (value : U16)
  | version (bytes : Bytes)
  | gear (speedGear timeGear : Byte)
  | light (colour : Colour)
deriving DecidableEq, Repr

/-- The output events of R63, in its order. `warn` is `EV_WARN(TransportError, ...)`, class 0x07 always. -/
inductive OutEvent where
  | tx (bytes : Bytes) (result : IoResult)
  | frame (frame : Frame)
  | display (update : DisplayUpdate)
  | handler (index : Nat) (handler : Nat) (frame : Frame)
  | done (timedOutFinal : Bool)
  | diag (cls : ErrorClass) (info : DiagInfo)
  | warn (op : TransportOp) (detail : WarnDetail)
deriving DecidableEq, Repr

/-- The value an operation of R62 that returns one (R67, R71, R72, R77) returned when it was run alone. -/
inductive RetVal where
  | byte (b : Byte)
  | bytes (b : Bytes)
  | frame (f : Frame)
  | frameError (e : FrameError)
  | candidates (c : List Bytes)
deriving DecidableEq, Repr

/-- `XC`, the exchange record (R15 to R17). -/
structure Xc where
  /-- `XC.active`: an exchange is in flight. -/
  active : Bool
  /-- `XC.steps`: its step table, captured by value; `[]` while idle. -/
  steps : List ExchangeStep
  /-- `XC.cursor`: the step whose response or timeout is awaited; 0 while idle. -/
  cursor : Nat
  /-- `XC.timer_armed`. -/
  timerArmed : Bool
  /-- `XC.timer_rem`, in ticks. -/
  timerRem : Nat
deriving DecidableEq, Repr

/-- The idle exchange record, its reset value (R24) and what XCHG.CANCEL leaves (R118). -/
def Xc.idle : Xc := ⟨false, [], 0, false, 0⟩

/-- `DS`, the display-state file (R19, R20): a cache of the last frame seen; `none` is "no frame yet". -/
structure Ds where
  status : Option Byte
  speed : Option U16
  voltage : Option U16
  temperature : Option Byte
  power : Option U16
  version : Option Bytes
  speedGear : Option Byte
  timeGear : Option Byte
  light : Light
deriving DecidableEq, Repr

/-- `DS` after reset (R24). -/
def Ds.blank : Ds := ⟨none, none, none, none, none, none, none, none, .none⟩

/-- The machine: the block's state (R11) and, after `out`, the model's own fields. -/
structure State where
  /-- `CFG` (R12). -/
  cfg : Cfg
  /-- `CONN.open` (R13). -/
  connOpen : Bool
  /-- `RB`, oldest byte first (R14). -/
  rb : Bytes
  /-- `XC` (R15 to R18). -/
  xc : Xc
  /-- `DS` (R19, R20). -/
  ds : Ds
  /-- `OUT`, oldest event first (R7); no rule reads it. -/
  out : List OutEvent
  /-- Model's own (assumption 3): the value the last operation run alone returned; no rule reads it. -/
  ret : Option RetVal
  /-- Model's own (assumption 4): what the environment will present, instant by instant; the words of one
  inner list are pending at the same instant (R139). -/
  inbox : List (List InWord)
  /-- Model's own (assumption 2): the transport's scripted answers to the coming writes (R134). -/
  answers : List IoResult
  /-- Model's own (assumption 2): how many unscripted answers have been drawn. -/
  draws : Nat
deriving DecidableEq, Repr

/-- The block has no trap and no error stops it (R150, R151, R156): there is no fault
(assumption 15). -/
inductive Fault where
deriving DecidableEq, Repr

/-- Inputs outside the spec's meaning ("refuse" in 93_implementation_defined.md). All are safe: the model
stops and claims nothing about what an implementation does. -/
inductive Refusal where
  /-- Raised by `exec` for an instruction that has no meaning yet. Safe. -/
  | notModelled (mnemonic : String)
  /-- Raised by `step` for an EVENT word whose code or arguments R62 does not list. Safe. -/
  | undecodable (e : DecodeError)
  /-- Raised by XCHG.START on an empty step list (U6, R126 (b)). Safe. -/
  | xchgNoSteps
  /-- Raised by XCHG.START on more than `MAX_STEPS` steps (R126 (b)). Safe. -/
  | xchgTooManySteps
  /-- Raised by XCHG.START on a step whose timeout is 0 (U6, R126 (c)). Safe. -/
  | xchgZeroTimeout
  /-- Raised by XCHG.START in the CONTROL context (U7, R126 (a)). Safe. -/
  | xchgInControl
  /-- Raised by RX and RSM.FEED when the chunk would take `RB` past a finite `RB_CAP` (U10, R86). Safe. -/
  | rbOverflow
  /-- Raised by XCHG.RESPONSE alone on a frame that does not match the current step (R114, R115,
  assumption 8). Safe. -/
  | responseWithoutMatch
  /-- Raised by XCHG.TIMEOUT alone when no step timer is armed (R116, R127, assumption 8). Safe. -/
  | timeoutWithoutTimer
  /-- Raised by MOTOR.GEAR on a payload of fewer than 2 bytes, which no decoded frame has (R74, R101,
  assumption 8). Safe. -/
  | gearPayloadShort
deriving DecidableEq, Repr

/-- The machine right after reset (R24). `CFG` is an input of reset: `Config.cfgAtReset` stands for it
until a RESET event supplies one (assumption 1). -/
def State.reset : State where
  cfg := Config.cfgAtReset
  connOpen := false
  rb := []
  xc := Xc.idle
  ds := Ds.blank
  out := []
  ret := none
  inbox := []
  answers := []
  draws := 0

end Sys2Proof.Machine
end

