-- ==== Sys2Proof/Machine/Flags.lean ====
section
/-! DEFINITION. Status. The block has no condition codes and no arithmetic flags (R21); what takes their
place is the status-to-light function (R104) and the numeric codes of the error classes (R141). -/

namespace Sys2Proof.Machine

/-- `light_of` (R104); `none` is its result UNKNOWN, which is never a value of `DS.light`. -/
def lightOf (code : Byte) : Option Colour :=
  if code = 0x00 then some .red
  else if code = 0x0B then some .green
  else if (0x20 ≤ code.toNat ∧ code.toNat ≤ 0x2B) ∨ code = 0x50 then some .blue
  else none

/-- The numeric code of an error class (R141). -/
def ErrorClass.code : ErrorClass → Byte
  | .tooShort => 0x01
  | .badHeader => 0x02
  | .badTrailer => 0x03
  | .badChecksum => 0x04
  | .unknownCommand => 0x05
  | .exchangeTimeout => 0x06
  | .transportError => 0x07
  | .unknownStatus => 0x08
  | .shortPayload => 0x09

/-- The error class of a `FrameError` (R142 to R145). -/
def errorClassOf : FrameError → ErrorClass
  | .tooShort => .tooShort
  | .badHeader => .badHeader
  | .badTrailer => .badTrailer
  | .badChecksum => .badChecksum

/-- The error class of an output event: `EV_DIAG` carries its own, `EV_WARN` is always `TransportError`
(R141). -/
def OutEvent.errorClass : OutEvent → Option ErrorClass
  | .diag c _ => some c
  | .warn _ _ => some .transportError
  | .tx _ _ | .frame _ | .display _ | .handler _ _ _ | .done _ => none

end Sys2Proof.Machine
end

