-- ==== Sys2Proof/Machine/Operands.lean ====
section
/-! DEFINITION. Operand forms: the byte-order helpers of R35, the payload schemas of R50 to R55, the
search primitive `find`, and the composite operation START_MOTOR (R65). -/

namespace Sys2Proof.Machine

/-- `be16(hi, lo)` = hi * 256 + lo: big-endian, the byte at the lower index the more significant (R35). -/
def be16 (hi lo : Byte) : U16 := BitVec.ofNat 16 (hi.toNat * 256 + lo.toNat)

/-- `hi8(v)` = v div 256. -/
def hi8 (v : U16) : Byte := BitVec.ofNat 8 (v.toNat / 256)

/-- `lo8(v)` = v mod 256. -/
def lo8 (v : U16) : Byte := BitVec.ofNat 8 (v.toNat % 256)

/-- The fields of a telemetry response (R51). -/
structure Telemetry where
  status : Byte
  speed : U16
  voltage : U16
  temperature : Byte
  power : U16
deriving DecidableEq, Repr

/-- Reading the telemetry schema: at least 8 bytes, further bytes ignored (R50, R51); `none` when short. -/
def telemetryOf : Bytes → Option Telemetry
  | p0 :: p1 :: p2 :: p3 :: p4 :: p5 :: p6 :: p7 :: _ => some ⟨p0, be16 p1 p2, be16 p3 p4, p5, be16 p6 p7⟩
  | _ => none

/-- Writing the telemetry schema, the 8 bytes of R97. -/
def telemetryPayload (t : Telemetry) : Bytes :=
  [t.status, hi8 t.speed, lo8 t.speed, hi8 t.voltage, lo8 t.voltage, t.temperature, hi8 t.power, lo8 t.power]

/-- The synthesized telemetry of the CONTROL context (R97, D4). -/
def synTelemetry (c : Cfg) : Telemetry := ⟨c.synStatus, c.synSpeed, c.synVoltage, c.synTemp, c.synPower⟩

/-- The request payload of SET_SPEED: the speed, big-endian (R55). -/
def setSpeedPayload (speed : U16) : Bytes := [hi8 speed, lo8 speed]

/-- `find(b, v, from)`: the least index i with from ≤ i < len(b) and b[i] = v. -/
def find (b : Bytes) (v : Byte) (start : Nat) : Option Nat :=
  ((b.drop start).findIdx? (fun x => x == v)).map (· + start)

/-- START_MOTOR (R65), the composite user operation: set speed, then run, then read status. DESIGN CHOICE
(assumption 19): the `description` of each step, which R65 does not give and no rule reads, is empty. -/
def startMotor (speed : U16) (h1 h2 h3 t1 t2 t3 : Nat) (q1 q2 : Bytes) : Instr :=
  .xchgStart
    [⟨⟨Command.setSpeed.code, setSpeedPayload speed⟩, h1, [], t1⟩,
     ⟨⟨Command.run.code, q1⟩, h2, [], t2⟩,
     ⟨⟨Command.telemetry.code, q2⟩, h3, [], t3⟩]

end Sys2Proof.Machine
end

