-- ==== Sys2Proof/Machine/Ops.lean ====
section
/-! DEFINITION. The shared operations over the state: output, errors (the block's exceptions: R150,
nothing is saved and there is no return, R151), the transport write, the display cache, the exchange
record's primitives, and the sequencing of outcomes. -/

namespace Sys2Proof.Machine

/-- The outcome type of every meaning. -/
abbrev Result := Host.Outcome State Fault Refusal

/-- Going on with `k` in the next state, or stopping where the first part stopped. -/
def andThen (r : Result) (k : State → Result) : Result :=
  match r with
  | .next s => k s
  | .fault e => .fault e
  | .refused e => .refused e

/-- `emit EV(args)`: append an output event to `OUT` (R7). -/
def emit (e : OutEvent) (s : State) : State := { s with out := s.out ++ [e] }

/-- TAKING AN EXCEPTION: `raise E(info)` (R150). It appends `EV_DIAG` and nothing else: no state is saved,
no mode changes, control goes nowhere; the caller abandons its current item by doing no more. -/
def raise (cls : ErrorClass) (info : DiagInfo) (s : State) : State := emit (.diag cls info) s

/-- `warn TransportError(info)` (R148): append `EV_WARN`; the caller's operation is abandoned. -/
def warn (op : TransportOp) (detail : WarnDetail) (s : State) : State := emit (.warn op detail) s

/-- The answer the transport will give to the next write: the environment's (R134). -/
def nextAnswer (s : State) : IoResult :=
  match s.answers with
  | r :: _ => r
  | [] => Config.freeAnswer s.draws

/-- The state once that answer has been taken. -/
def takeAnswer (s : State) : State :=
  { s with
    answers := s.answers.tail
    draws := if s.answers.isEmpty then s.draws + 1 else s.draws }

/-- `write(b)` (R134): on an open connection the whole of `b` is handed over in one call and `EV_TX`
carries the answer. On a closed one nothing is handed over and the answer is `fail` (R133, R141;
assumption 6). -/
def write (b : Bytes) (s : State) : IoResult × State :=
  if s.connOpen then (nextAnswer s, emit (.tx b (nextAnswer s)) (takeAnswer s)) else (.fail, s)

/-- The write of a `DS` field that a display update stands for (R108). -/
def Ds.apply (d : Ds) : DisplayUpdate → Ds
  | .status c => { d with status := some c }
  | .speed v => { d with speed := some v }
  | .voltage v => { d with voltage := some v }
  | .temperature v => { d with temperature := some v }
  | .power v => { d with power := some v }
  | .version b => { d with version := some b }
  | .gear a b => { d with speedGear := some a, timeGear := some b }
  | .light c => { d with light := .lit c }

/-- A write to `DS` and, immediately after it, its `EV_DISPLAY` (R108). -/
def display (u : DisplayUpdate) (s : State) : State := emit (.display u) { s with ds := s.ds.apply u }

/-- Applying a status code to the light (R97, R103): a known code sets it, an unknown one is logged and
leaves it. -/
def showLight (code : Byte) (s : State) : State :=
  match lightOf code with
  | some c => display (.light c) s
  | none => raise .unknownStatus (.status code) s

/-- Leaving the value of an operation run alone where it can be seen (assumption 3). -/
def returnValue (v : RetVal) (s : State) : State := { s with ret := some v }

/-- The step at the cursor of a running exchange; the read is defined only there (R33,
assumption 10). -/
def currentStep (s : State) : Option ExchangeStep :=
  if s.xc.active then s.xc.steps[s.xc.cursor]? else none

/-- A frame matches the current step: an exchange is active and the command bytes are equal (R114). -/
def matchesStep (f : Frame) (s : State) : Bool :=
  match currentStep s with
  | some st => f.command == st.request.command
  | none => false

/-- Disarming the step timer (R17). -/
def disarm (s : State) : State := { s with xc := { s.xc with timerArmed := false, timerRem := 0 } }

/-- XCHG.CANCEL (R118): the exchange record becomes idle; nothing is emitted. -/
def cancelExchange (s : State) : State := { s with xc := Xc.idle }

/-- SEND_STEP (R113) for the step at the cursor: encode and write its request, then arm its timeout
(R121); a failed write is warned of and cancels the exchange (R125). -/
def sendStep (st : ExchangeStep) (s : State) : State :=
  match write (encodeFrame st.request.command st.request.payload) s with
  | (.ok, t) => { t with xc := { t.xc with timerArmed := true, timerRem := st.timeout } }
  | (.fail, t) => cancelExchange (warn .exchangeStep (.stepIndex t.xc.cursor) t)

/-- ADVANCE (R117): the cursor moves on by 1, and either the step there is sent or the exchange is
complete. -/
def advance (timedOut : Bool) (s : State) : State :=
  match s.xc.steps[s.xc.cursor + 1]? with
  | some st => sendStep st { s with xc := { s.xc with cursor := s.xc.cursor + 1 } }
  | none => emit (.done timedOut) { s with xc := { s.xc with active := false, steps := [], cursor := 0 } }

/-- The body of XCHG.RESPONSE (R115) for the current step: notify its handler, disarm, advance. -/
def resolveStep (st : ExchangeStep) (f : Frame) (s : State) : State :=
  advance false (disarm (emit (.handler s.xc.cursor st.handler f) s))

/-- The body of XCHG.TIMEOUT (R116): log, disarm, advance; the handler is not notified, the request not
sent again (R122). -/
def timeOutStep (s : State) : State :=
  advance true (disarm (raise .exchangeTimeout (.stepIndex s.xc.cursor) s))

/-- ROUTE (R107): a matching frame resolves the current step; any other does nothing. -/
def route (f : Frame) (s : State) : State :=
  match currentStep s with
  | some st => if f.command = st.request.command then resolveStep st f s else s
  | none => s

/-- DISP.ACK (R91): one write of the encoded ack; a failure is warned of and not retried. -/
def sendAck (command : Byte) (payload : Bytes) (s : State) : IoResult × State :=
  match write (encodeFrame command payload) s with
  | (.ok, t) => (.ok, t)
  | (.fail, t) => (.fail, warn .ack (.command command) t)

end Sys2Proof.Machine
end

