-- ==== Sys2Proof/Machine/Checksum.lean ====
section
/-! DEFINITION. The checksum engine and the codec run alone: CKSUM.COMPUTE, CODEC.ENCODE, CODEC.DECODE. -/

namespace Sys2Proof.Machine

/-- CKSUM.COMPUTE (R67): total, no state read or written; its value is returned. -/
def execCksumCompute (b : Bytes) (s : State) : Result := .next (returnValue (.byte (sum8 b)) s)

/-- CODEC.ENCODE (R71): total, its value is returned; a payload over a finite `MAX_PAYLOAD_LEN` is encoded like
any other (DESIGN CHOICE, assumption 18). -/
def execCodecEncode (command : Byte) (payload : Bytes) (s : State) : Result :=
  .next (returnValue (.bytes (encodeFrame command payload)) s)

/-- CODEC.DECODE (R72): the Frame or the first failing check is returned; nothing is emitted, the caller
raises errors (R136). -/
def execCodecDecode (raw : Bytes) (s : State) : Result :=
  match decodeFrame raw with
  | .ok f => .next (returnValue (.frame f) s)
  | .error e => .next (returnValue (.frameError e) s)

end Sys2Proof.Machine
end

