-- ==== Sys2Proof/Machine/Control.lean ====
section
/-! DEFINITION. The CONTROL context: one meaning per command (R92 to R97). No row reads the payload of the
received frame (R110). -/

namespace Sys2Proof.Machine

/-- CTRL.STOP (R92). -/
def execCtrlStop (_payload : Bytes) (s : State) : Result :=
  .next (sendAck Command.stop.code s.cfg.ackStop s).2

/-- CTRL.RUN (R93). -/
def execCtrlRun (_payload : Bytes) (s : State) : Result :=
  .next (sendAck Command.run.code s.cfg.ackRun s).2

/-- CTRL.SET_SPEED (R94): the received speed is neither read nor echoed. -/
def execCtrlSetSpeed (_payload : Bytes) (s : State) : Result :=
  .next (sendAck Command.setSpeed.code s.cfg.ackSetSpeed s).2

/-- CTRL.GEAR (R95). -/
def execCtrlGear (_payload : Bytes) (s : State) : Result :=
  .next (sendAck Command.gear.code s.cfg.ackGear s).2

/-- CTRL.VERSION (R96). -/
def execCtrlVersion (_payload : Bytes) (s : State) : Result :=
  .next (sendAck Command.version.code s.cfg.ackVersion s).2

/-- The state after CTRL.TELEMETRY (R97): the light follows the synthesized status once the ack has been
written, and only then. -/
def ctrlTelemetryAfter (s : State) : State :=
  match sendAck Command.telemetry.code (telemetryPayload (synTelemetry s.cfg)) s with
  | (.ok, t) => showLight s.cfg.synStatus t
  | (.fail, t) => t

/-- CTRL.TELEMETRY (R97). -/
def execCtrlTelemetry (_payload : Bytes) (s : State) : Result := .next (ctrlTelemetryAfter s)

end Sys2Proof.Machine
end

