-- ==== Sys2Proof/Machine/Motor.lean ====
section
/-! DEFINITION. The MOTOR context: one meaning per command (R98 to R103). Nothing is transmitted by a row;
each ends with ROUTE (R107). -/

namespace Sys2Proof.Machine

/-- MOTOR.STOP (R98): nothing is decoded. -/
def execMotorStop (payload : Bytes) (s : State) : Result := .next (route ⟨Command.stop.code, payload⟩ s)

/-- MOTOR.RUN (R99): nothing is decoded. -/
def execMotorRun (payload : Bytes) (s : State) : Result := .next (route ⟨Command.run.code, payload⟩ s)

/-- MOTOR.SET_SPEED (R100): nothing is decoded, `DS.speed` in particular is not written. -/
def execMotorSetSpeed (payload : Bytes) (s : State) : Result :=
  .next (route ⟨Command.setSpeed.code, payload⟩ s)

/-- MOTOR.GEAR (R101): two bytes are read, further ones ignored. -/
def execMotorGear (payload : Bytes) (s : State) : Result :=
  match payload with
  | a :: b :: _ => .next (route ⟨Command.gear.code, payload⟩ (display (.gear a b) s))
  | _ => .refused .gearPayloadShort

/-- MOTOR.VERSION (R102): the whole payload, unchecked. -/
def execMotorVersion (payload : Bytes) (s : State) : Result :=
  .next (route ⟨Command.version.code, payload⟩ (display (.version payload) s))

/-- The five telemetry fields and the light, in the fixed order of R103. -/
def showTelemetry (t : Telemetry) (s : State) : State :=
  showLight t.status
    (display (.power t.power)
      (display (.temperature t.temperature)
        (display (.voltage t.voltage)
          (display (.speed t.speed)
            (display (.status t.status) s)))))

/-- MOTOR.TELEMETRY (R103): a payload shorter than 8 bytes is dropped with `ShortPayload` and not routed
(R106). -/
def execMotorTelemetry (payload : Bytes) (s : State) : Result :=
  match telemetryOf payload with
  | none => .next (raise .shortPayload (.payloadLength Command.telemetry.code payload.length) s)
  | some t => .next (route ⟨Command.telemetry.code, payload⟩ (showTelemetry t s))

end Sys2Proof.Machine
end

