-- ==== Sys2Proof/Machine/Dispatcher.lean ====
section
/-! DEFINITION. DISP.DISPATCH (R90) and PROCESS (R136). -/

namespace Sys2Proof.Machine

/-- DISP.DISPATCH (R90): the row of the context and the command; a command outside the table raises
`UnknownCommand` and has no other effect (R105). -/
def execDispDispatch (f : Frame) (s : State) : Result :=
  match Command.ofByte f.command with
  | none => .next (raise .unknownCommand (.command f.command) s)
  | some c =>
    match s.cfg.ctx, c with
    | .control, .stop => execCtrlStop f.payload s
    | .control, .run => execCtrlRun f.payload s
    | .control, .setSpeed => execCtrlSetSpeed f.payload s
    | .control, .gear => execCtrlGear f.payload s
    | .control, .version => execCtrlVersion f.payload s
    | .control, .telemetry => execCtrlTelemetry f.payload s
    | .motor, .stop => execMotorStop f.payload s
    | .motor, .run => execMotorRun f.payload s
    | .motor, .setSpeed => execMotorSetSpeed f.payload s
    | .motor, .gear => execMotorGear f.payload s
    | .motor, .version => execMotorVersion f.payload s
    | .motor, .telemetry => execMotorTelemetry f.payload s

/-- PROCESS (R136): a candidate that fails decoding is dropped with its diagnostic; one that decodes is
announced (R137) and dispatched. -/
def process (raw : Bytes) (s : State) : Result :=
  match decodeFrame raw with
  | .error e => .next (raise (errorClassOf e) (.candidate raw) s)
  | .ok f => execDispDispatch f (emit (.frame f) s)

/-- PROCESS over the candidates of one chunk, in order; an error in one does not stop the next (R135). -/
def processAll : List Bytes → State → Result
  | [], s => .next s
  | c :: cs, s => andThen (process c s) (processAll cs)

end Sys2Proof.Machine
end

