-- ==== Sys2Proof/Machine/Exchange.lean ====
section
/-! DEFINITION. The sequenced exchange controller: XCHG.START, XCHG.RESPONSE, XCHG.TIMEOUT, XCHG.CANCEL and
TICK (R111 to R126). -/

namespace Sys2Proof.Machine

/-- More steps than a finite `MAX_STEPS` (R126 (b)). -/
def tooManySteps (c : Cfg) (steps : List ExchangeStep) : Bool :=
  match c.maxSteps with
  | none => false
  | some m => decide (m < steps.length)

/-- The body of XCHG.START (R112): a running exchange is cancelled first, silently (R119); on a closed port
only a warning; else the table is captured (R46) and step 0 sent. -/
def startExchange (first : ExchangeStep) (steps : List ExchangeStep) (s : State) : State :=
  let t := if s.xc.active then cancelExchange s else s
  if t.connOpen then sendStep first { t with xc := { t.xc with steps := steps, cursor := 0, active := true } }
  else warn .start .portClosed t

/-- XCHG.START (R112) under the preconditions of R126, each refused by its own name (U6, U7). -/
def execXchgStart (steps : List ExchangeStep) (s : State) : Result :=
  match s.cfg.ctx, steps with
  | .control, _ => .refused .xchgInControl
  | .motor, [] => .refused .xchgNoSteps
  | .motor, first :: _ =>
    if tooManySteps s.cfg steps then .refused .xchgTooManySteps
    else if !steps.all ExchangeStep.ok then .refused .xchgZeroTimeout
    else .next (startExchange first steps s)

/-- XCHG.RESPONSE (R115); its operand matches the current step (R114), anything else is no operand. -/
def execXchgResponse (f : Frame) (s : State) : Result :=
  match currentStep s with
  | none => .refused .responseWithoutMatch
  | some st =>
    if f.command = st.request.command then .next (resolveStep st f s) else .refused .responseWithoutMatch

/-- XCHG.TIMEOUT (R116) presented alone: possible whenever the step timer of a running exchange is armed
(R127). -/
def execXchgTimeout (s : State) : Result :=
  if s.xc.active && s.xc.timerArmed then .next (timeOutStep s) else .refused .timeoutWithoutTimer

/-- XCHG.CANCEL (R118). -/
def execXchgCancel (s : State) : Result := .next (cancelExchange s)

/-- The state after TICK (R120): an armed timer counts down and expires on its last tick. -/
def tickAfter (s : State) : State :=
  if s.xc.timerArmed then
    if s.xc.timerRem ≤ 1 then timeOutStep s
    else { s with xc := { s.xc with timerRem := s.xc.timerRem - 1 } }
  else s

/-- TICK (R120). -/
def execTick (s : State) : Result := .next (tickAfter s)

end Sys2Proof.Machine
end

