-- ==== Sys2Proof/Machine/Reassembler.lean ====
section
/-! DEFINITION. The stream reassembler: RSM.FEED (R77) and its seven steps (R78 to R85). -/

namespace Sys2Proof.Machine

/-- What the search for a header (steps 2 to 4) leaves of the buffer. -/
inductive HeaderScan where
  /-- Step 2: no 0x10; the buffer is cleared (R79). -/
  | absent
  /-- A lone 0x10 is left; it is kept and more data awaited (R82). -/
  | lone
  /-- The buffer begins 10 02. -/
  | found (rb : Bytes)
deriving DecidableEq, Repr

/-- Steps 2 to 4: drop bytes up to the first 0x10 (R80); when the byte after it is not 0x02 drop it too
and search again, the byte after it included (R81). -/
def scanHeader : Bytes → HeaderScan
  | [] => .absent
  | b :: rest =>
    if b = Config.headerByte then
      match rest with
      | [] => .lone
      | c :: _ => if c = Config.headerSecond then .found (b :: rest) else scanHeader rest
    else scanHeader rest

/-- The passes of R77 over the buffer: the candidates in order and what is left of it. Each pass takes at
least 3 bytes, so `fuel` above the buffer's length is never used up. -/
def passes : Nat → Bytes → List Bytes × Bytes
  | 0, rb => ([], rb)
  | fuel + 1, rb =>
    if rb.length < Config.minCandidateLen then ([], rb)
    else
      match scanHeader rb with
      | .absent => ([], [])
      | .lone => ([], [Config.headerByte])
      | .found hb =>
        match find hb Config.trailerByte 1 with
        | none => ([], hb)
        | some e =>
          let later := passes fuel (hb.drop (e + 1))
          if (hb.take (e + 1)).length < Config.minCandidateLen then later
          else (hb.take (e + 1) :: later.1, later.2)

/-- RSM.FEED as a function of the buffer and the chunk (R77): the candidates and the new buffer. -/
def feed (rb chunk : Bytes) : List Bytes × Bytes := passes ((rb ++ chunk).length + 1) (rb ++ chunk)

/-- The append would take `RB` past a finite `RB_CAP` (R86, U10, assumption 9). -/
def overCap (s : State) (chunk : Bytes) : Bool :=
  match s.cfg.rbCap with
  | none => false
  | some cap => decide (cap < s.rb.length + chunk.length)

/-- RSM.FEED run alone (R77): `RB` is rewritten and the candidates are returned. -/
def execRsmFeed (chunk : Bytes) (s : State) : Result :=
  if overCap s chunk then .refused .rbOverflow
  else .next (returnValue (.candidates (feed s.rb chunk).1) { s with rb := (feed s.rb chunk).2 })

end Sys2Proof.Machine
end

