-- ==== Sys2Proof/Machine/Connection.lean ====
section
/-! DEFINITION. The connection operations, the receive pipeline and reset: CONN.OPEN, CONN.CLOSE,
CONN.SEND, RX (R129 to R138) and RESET (R166). -/

namespace Sys2Proof.Machine

/-- The state after CONN.OPEN (R129, R130). -/
def openAfter (result : IoResult) (s : State) : State :=
  if s.connOpen then warn .openPort .alreadyOpen s
  else
    match result with
    | .fail => warn .openPort .ioError s
    | .ok => { s with connOpen := true, rb := [] }

/-- CONN.OPEN (R129); the port's name and rate are the transport's and never read. -/
def execConnOpen (_portName : Bytes) (_baudRate : Nat) (result : IoResult) (s : State) : Result :=
  .next (openAfter result s)

/-- CONN.CLOSE (R131): cancel, clear the buffer, close; `DS` is kept; nothing on a closed connection. -/
def execConnClose (s : State) : Result :=
  if s.connOpen then .next { cancelExchange s with rb := [], connOpen := false } else .next s

/-- The state after the write of CONN.SEND (R132). -/
def sendAfter (command : Byte) (payload : Bytes) (s : State) : State :=
  match write (encodeFrame command payload) s with
  | (.ok, t) => t
  | (.fail, t) => warn .send (.command command) t

/-- CONN.SEND (R132), on a closed connection only a warning (R133); neither operand is checked. -/
def execConnSend (command : Byte) (payload : Bytes) (s : State) : Result :=
  if !s.connOpen then .next (warn .send .portClosed s)
  else .next (sendAfter command payload s)

/-- RX (R135): ignored on a closed connection (R138); else the chunk is fed and every candidate it yields
is processed, all within the one event. -/
def execRx (chunk : Bytes) (s : State) : Result :=
  if !s.connOpen then .next s
  else if overCap s chunk then .refused .rbOverflow
  else processAll (feed s.rb chunk).1 { s with rb := (feed s.rb chunk).2 }

/-- RESET (R166): total and unconditional (R167); what is the environment's (its coming words and answers)
is not the block's to reset. A `cfg` with a short `ACK_*` is taken as it is (U9, assumption 7). -/
def execReset (cfg : Cfg) (s : State) : Result :=
  .next
    { cfg := cfg
      connOpen := false
      rb := []
      xc := Xc.idle
      ds := Ds.blank
      out := []
      ret := none
      inbox := s.inbox
      answers := s.answers
      draws := s.draws }

end Sys2Proof.Machine
end

