-- ==== Sys2Proof/Machine/Dispatch.lean ====
section
/-! DEFINITION. One arm per constructor of Instr, each a call of that instruction's own meaning. -/

namespace Sys2Proof.Machine

def exec (i : Instr) (s : State) : Host.Outcome State Fault Refusal :=
  match i with
  -- FRAME rows, CONTROL context
  | .ctrlStop payload => Sys2Proof.Machine.execCtrlStop payload s
  | .ctrlRun payload => Sys2Proof.Machine.execCtrlRun payload s
  | .ctrlSetSpeed payload => Sys2Proof.Machine.execCtrlSetSpeed payload s
  | .ctrlGear payload => Sys2Proof.Machine.execCtrlGear payload s
  | .ctrlVersion payload => Sys2Proof.Machine.execCtrlVersion payload s
  | .ctrlTelemetry payload => Sys2Proof.Machine.execCtrlTelemetry payload s
  -- FRAME rows, MOTOR context
  | .motorStop payload => Sys2Proof.Machine.execMotorStop payload s
  | .motorRun payload => Sys2Proof.Machine.execMotorRun payload s
  | .motorSetSpeed payload => Sys2Proof.Machine.execMotorSetSpeed payload s
  | .motorGear payload => Sys2Proof.Machine.execMotorGear payload s
  | .motorVersion payload => Sys2Proof.Machine.execMotorVersion payload s
  | .motorTelemetry payload => Sys2Proof.Machine.execMotorTelemetry payload s
  -- EVENT rows, input events
  | .reset cfg => Sys2Proof.Machine.execReset cfg s
  | .connOpen portName baudRate result => Sys2Proof.Machine.execConnOpen portName baudRate result s
  | .connClose => Sys2Proof.Machine.execConnClose s
  | .rx chunk => Sys2Proof.Machine.execRx chunk s
  | .connSend command payload => Sys2Proof.Machine.execConnSend command payload s
  | .xchgStart steps => Sys2Proof.Machine.execXchgStart steps s
  | .tick => Sys2Proof.Machine.execTick s
  -- EVENT rows, internal operations
  | .cksumCompute b => Sys2Proof.Machine.execCksumCompute b s
  | .codecEncode command payload => Sys2Proof.Machine.execCodecEncode command payload s
  | .codecDecode raw => Sys2Proof.Machine.execCodecDecode raw s
  | .rsmFeed chunk => Sys2Proof.Machine.execRsmFeed chunk s
  | .dispDispatch frame => Sys2Proof.Machine.execDispDispatch frame s
  | .xchgResponse frame => Sys2Proof.Machine.execXchgResponse frame s
  | .xchgTimeout => Sys2Proof.Machine.execXchgTimeout s
  | .xchgCancel => Sys2Proof.Machine.execXchgCancel s

end Sys2Proof.Machine
end

