-- ==== Sys2Proof/Machine/Fetch.lean ====
section
/-! DEFINITION. How the next word comes to be run: the serialisation of the words pending at one instant
(R139, R155), the run of a decoded word, and what a table word needs in order to be the next one run. -/

namespace Sys2Proof.Machine

/-- The fixed priority of coincident events, 0 the highest: RESET, CONN.CLOSE, CONN.OPEN, RX, TICK,
XCHG.START, CONN.SEND (R139). A frame presented alone ranks with received bytes; an internal operation,
which the environment never presents, ranks last. -/
def priority : InWord → Nat
  | .frame _ => 3
  | .event code _ =>
    if code = 0x00 then 0
    else if code = 0x02 then 1
    else if code = 0x01 then 2
    else if code = 0x03 then 3
    else if code = 0x06 then 4
    else if code = 0x05 then 5
    else if code = 0x04 then 6
    else 7

/-- The word of one instant that is taken first, and the others in their order: the highest priority, and
the earliest of equals (R139). -/
def pickFirst : List InWord → Option (InWord × List InWord)
  | [] => none
  | w :: ws =>
    match pickFirst ws with
    | none => some (w, [])
    | some (v, others) => if priority w ≤ priority v then some (w, ws) else some (v, w :: others)

/-- The next word of the instants to come and the instants that remain; an instant with nothing pending is
passed over. -/
def fetchFrom : List (List InWord) → Option (InWord × List (List InWord))
  | [] => none
  | batch :: later =>
    match pickFirst batch with
    | none => fetchFrom later
    | some (w, []) => some (w, later)
    | some (w, u :: others) => some (w, (u :: others) :: later)

/-- The next word the environment presents and the state with it taken. -/
def fetch (s : State) : Option (InWord × State) :=
  (fetchFrom s.inbox).map (fun p => (p.1, { s with inbox := p.2 }))

/-- Running a word. An event is decoded and executed. A frame presented alone is processed like a candidate
(R136), on an open connection only (R138); assumption 11. -/
def runWord (w : InWord) (s : State) : Result :=
  match w with
  | .frame raw => if s.connOpen then process raw s else .next s
  | .event code args =>
    match decodeEvent code args with
    | .ok i => exec i s
    | .error e => .refused (.undecodable e)

/-- The exchange a table word for XCHG.RESPONSE or XCHG.TIMEOUT is run in: these two operations exist only
inside a running exchange (R115, R116). Its one step awaits command 0x00 for one tick. -/
def probeExchange : Xc := ⟨true, [⟨⟨0x00, [0x00, 0x00]⟩, 0, [], 1⟩], 0, true, 1⟩

/-- What running a word needs of the state beside being next: an open connection for a frame, the MOTOR
context for XCHG.START, a running exchange for XCHG.RESPONSE and XCHG.TIMEOUT (assumption 5). -/
def readyFor (w : InWord) (s : State) : State :=
  match w with
  | .frame _ => { s with connOpen := true }
  | .event code _ =>
    if code = 0x05 then { s with cfg := { s.cfg with ctx := .motor } }
    else if code = 0x15 ∨ code = 0x16 then
      { s with cfg := { s.cfg with ctx := .motor }, connOpen := true, xc := probeExchange }
    else s

/-- The state with a table word as the very next one to run; a width the table has not changes nothing. -/
def placeTableWord (s : State) (nbits w : Nat) : State :=
  match tableWord nbits w with
  | none => s
  | some word => readyFor word { s with inbox := [word] :: s.inbox }

end Sys2Proof.Machine
end

