-- ==== Sys2Proof/Safety.lean ====
section
/-! DEFINITION. What a safe state is, in the terms the statements use: the invariants the spec's prose
gives the state between events (R14 to R17, R87, R107, R138), and the environments that present input
events only (R62). -/

namespace Sys2Proof

/-- The operations that R21 lets write `CONN.open`. -/
def Instr.writesOpen : Instr → Bool
  | .reset _ | .connOpen _ _ _ | .connClose => true
  | .rx _ | .connSend _ _ | .xchgStart _ | .tick => false
  | .ctrlStop _ | .ctrlRun _ | .ctrlSetSpeed _ | .ctrlGear _ | .ctrlVersion _ | .ctrlTelemetry _ => false
  | .motorStop _ | .motorRun _ | .motorSetSpeed _ | .motorGear _ | .motorVersion _ | .motorTelemetry _ => false
  | .cksumCompute _ | .codecEncode _ _ | .codecDecode _ | .rsmFeed _ | .dispDispatch _ => false
  | .xchgResponse _ | .xchgTimeout | .xchgCancel => false

/-- The operations that R21 lets write `RB`. -/
def Instr.writesRb : Instr → Bool
  | .reset _ | .connOpen _ _ _ | .connClose | .rx _ | .rsmFeed _ => true
  | .connSend _ _ | .xchgStart _ | .tick => false
  | .ctrlStop _ | .ctrlRun _ | .ctrlSetSpeed _ | .ctrlGear _ | .ctrlVersion _ | .ctrlTelemetry _ => false
  | .motorStop _ | .motorRun _ | .motorSetSpeed _ | .motorGear _ | .motorVersion _ | .motorTelemetry _ => false
  | .cksumCompute _ | .codecEncode _ _ | .codecDecode _ | .dispDispatch _ => false
  | .xchgResponse _ | .xchgTimeout | .xchgCancel => false

/-- The operations that R21 lets write `XC`; a MOTOR row and DISP.DISPATCH do so through XCHG.RESPONSE
(R107). -/
def Instr.writesXc : Instr → Bool
  | .reset _ | .connClose | .rx _ | .xchgStart _ | .tick => true
  | .motorStop _ | .motorRun _ | .motorSetSpeed _ | .motorGear _ | .motorVersion _ | .motorTelemetry _ => true
  | .dispDispatch _ | .xchgResponse _ | .xchgTimeout | .xchgCancel => true
  | .connOpen _ _ _ | .connSend _ _ => false
  | .ctrlStop _ | .ctrlRun _ | .ctrlSetSpeed _ | .ctrlGear _ | .ctrlVersion _ | .ctrlTelemetry _ => false
  | .cksumCompute _ | .codecEncode _ _ | .codecDecode _ | .rsmFeed _ => false

/-- The operations that R21 lets write `DS`. -/
def Instr.writesDs : Instr → Bool
  | .reset _ | .rx _ | .dispDispatch _ | .ctrlTelemetry _ => true
  | .motorGear _ | .motorVersion _ | .motorTelemetry _ => true
  | .ctrlStop _ | .ctrlRun _ | .ctrlSetSpeed _ | .ctrlGear _ | .ctrlVersion _ => false
  | .motorStop _ | .motorRun _ | .motorSetSpeed _ => false
  | .connOpen _ _ _ | .connClose | .connSend _ _ | .xchgStart _ | .tick => false
  | .cksumCompute _ | .codecEncode _ _ | .codecDecode _ | .rsmFeed _ => false
  | .xchgResponse _ | .xchgTimeout | .xchgCancel => false

/-- RESET, the only operation that writes `CFG` and empties `OUT` (R12, R166). -/
def Instr.isReset : Instr → Bool
  | .reset _ => true
  | .connOpen _ _ _ | .connClose | .rx _ | .connSend _ _ | .xchgStart _ | .tick => false
  | .ctrlStop _ | .ctrlRun _ | .ctrlSetSpeed _ | .ctrlGear _ | .ctrlVersion _ | .ctrlTelemetry _ => false
  | .motorStop _ | .motorRun _ | .motorSetSpeed _ | .motorGear _ | .motorVersion _ | .motorTelemetry _ => false
  | .cksumCompute _ | .codecEncode _ _ | .codecDecode _ | .rsmFeed _ | .dispDispatch _ => false
  | .xchgResponse _ | .xchgTimeout | .xchgCancel => false

/-- XCHG.START, the only operation that makes an exchange active (R111). -/
def Instr.isStart : Instr → Bool
  | .xchgStart _ => true
  | .reset _ | .connOpen _ _ _ | .connClose | .rx _ | .connSend _ _ | .tick => false
  | .ctrlStop _ | .ctrlRun _ | .ctrlSetSpeed _ | .ctrlGear _ | .ctrlVersion _ | .ctrlTelemetry _ => false
  | .motorStop _ | .motorRun _ | .motorSetSpeed _ | .motorGear _ | .motorVersion _ | .motorTelemetry _ => false
  | .cksumCompute _ | .codecEncode _ _ | .codecDecode _ | .rsmFeed _ | .dispDispatch _ => false
  | .xchgResponse _ | .xchgTimeout | .xchgCancel => false

/-- RX, the only operation that can move the exchange on by more than one step (R175). -/
def Instr.isRx : Instr → Bool
  | .rx _ => true
  | .reset _ | .connOpen _ _ _ | .connClose | .connSend _ _ | .xchgStart _ | .tick => false
  | .ctrlStop _ | .ctrlRun _ | .ctrlSetSpeed _ | .ctrlGear _ | .ctrlVersion _ | .ctrlTelemetry _ => false
  | .motorStop _ | .motorRun _ | .motorSetSpeed _ | .motorGear _ | .motorVersion _ | .motorTelemetry _ => false
  | .cksumCompute _ | .codecEncode _ _ | .codecDecode _ | .rsmFeed _ | .dispDispatch _ => false
  | .xchgResponse _ | .xchgTimeout | .xchgCancel => false

/-- CONN.SEND, the only event that transmits in the MOTOR context without an exchange (R89, R132). -/
def Instr.isSend : Instr → Bool
  | .connSend _ _ => true
  | .reset _ | .connOpen _ _ _ | .connClose | .rx _ | .xchgStart _ | .tick => false
  | .ctrlStop _ | .ctrlRun _ | .ctrlSetSpeed _ | .ctrlGear _ | .ctrlVersion _ | .ctrlTelemetry _ => false
  | .motorStop _ | .motorRun _ | .motorSetSpeed _ | .motorGear _ | .motorVersion _ | .motorTelemetry _ => false
  | .cksumCompute _ | .codecEncode _ _ | .codecDecode _ | .rsmFeed _ | .dispDispatch _ => false
  | .xchgResponse _ | .xchgTimeout | .xchgCancel => false

end Sys2Proof

namespace Sys2Proof.Machine

/-- The buffer after a feed (R87): fewer than 4 bytes, or it begins 10 02 and holds no 0x03 at an index of
1 or more. -/
def RbSettled (rb : Bytes) : Prop :=
  rb.length < 4 ∨ (rb.take 2 = [0x10, 0x02] ∧ ∀ i, 1 ≤ i → rb[i]? ≠ some 0x03)

/-- The buffer is within a finite `RB_CAP` (R86). -/
def WithinCap (s : State) : Prop := ∀ cap, s.cfg.rbCap = some cap → s.rb.length ≤ cap

/-- An idle exchange record is the one idle state (R15, R16, R17). -/
def XcIdle (x : Xc) : Prop := x.steps = [] ∧ x.cursor = 0 ∧ x.timerArmed = false ∧ x.timerRem = 0

/-- A running exchange record (R15 to R17): the cursor is in the table, the timer armed, and its count
between 1 and the current step's timeout. -/
def XcWaiting (c : Cfg) (x : Xc) : Prop :=
  x.timerArmed = true ∧ (∀ m, c.maxSteps = some m → x.steps.length ≤ m) ∧
    (∀ st ∈ x.steps, 1 ≤ st.timeout) ∧
    ∃ st, x.steps[x.cursor]? = some st ∧ 1 ≤ x.timerRem ∧ x.timerRem ≤ st.timeout

/-- The exchange record between events (R15 to R17, R111): idle or waiting. -/
def XcSound (c : Cfg) (x : Xc) : Prop :=
  (x.active = false ∧ XcIdle x) ∨ (x.active = true ∧ XcWaiting c x)

/-- An exchange runs on an open connection and in the MOTOR context only (R107, R126, R129). -/
def XcPlaced (s : State) : Prop := s.xc.active = true → s.connOpen = true ∧ s.cfg.ctx = .motor

/-- A closed connection has an empty buffer (R131, R138). -/
def ClosedEmpty (s : State) : Prop := s.connOpen = false → s.rb = []

/-- Everything the environment will present is an input event (R62). -/
def InputsOnly (s : State) : Prop := ∀ batch ∈ s.inbox, ∀ w ∈ batch, w.isInput = true

/-- The invariant of the block's own state between events. -/
structure BlockSound (s : State) : Prop where
  rbSettled : RbSettled s.rb
  withinCap : WithinCap s
  xcSound : XcSound s.cfg s.xc
  xcPlaced : XcPlaced s
  closedEmpty : ClosedEmpty s

/-- The event is a transmission (R134). -/
def IsTx : OutEvent → Bool
  | .tx _ _ => true
  | .frame _ | .display _ | .handler _ _ _ | .done _ | .diag _ _ | .warn _ _ => false

/-- The event is a notice of an exchange that R131 says cannot follow a close: a handler notice, a completion
or an exchange timeout. A transmission is `IsTx`. -/
def IsExchangeNotice : OutEvent → Bool
  | .handler _ _ _ | .done _ => true
  | .diag c _ => c == .exchangeTimeout
  | .tx _ _ | .frame _ | .display _ | .warn _ _ => false

/-- Feeding chunks one after another: all the candidates and the last buffer (R88). -/
def feedAll : Bytes → List Bytes → List Bytes × Bytes
  | rb, [] => ([], rb)
  | rb, c :: cs => ((feed rb c).1 ++ (feedAll (feed rb c).2 cs).1, (feedAll (feed rb c).2 cs).2)

/-- The bytes hold no header: no 0x10 directly followed by 0x02 (R172). -/
def NoHeader (g : Bytes) : Prop := ∀ i : Nat, ¬ (g[i]? = some 0x10 ∧ g[i + 1]? = some 0x02)

/-- The candidate is a valid frame of a table command (R109). -/
def isTableFrame (raw : Bytes) : Bool :=
  match decodeFrame raw with
  | .ok f => (Command.ofByte f.command).isSome
  | .error _ => false

/-- Executing events one after another, in the order presented (R6). -/
def runEvents : List Instr → State → Result
  | [], s => .next s
  | i :: rest, s => andThen (exec i s) (runEvents rest)

/-- `n` consecutive TICK events. -/
def ticks (n : Nat) (s : State) : Result := runEvents (List.replicate n .tick) s

/-- A display cache rebuilt from the display events alone (R108). -/
def replay (d : Ds) (events : List OutEvent) : Ds :=
  events.foldl (fun e ev => match ev with | .display u => e.apply u | _ => e) d

/-- The most ticks a running exchange can still take: the current count and the timeouts of the steps
after the current one (R111). -/
def ticksLeft (x : Xc) : Nat := x.timerRem + ((x.steps.drop (x.cursor + 1)).map ExchangeStep.timeout).sum

/-- What a CONTROL row does on an open connection (R91): one ack frame, a warning if its write fails. -/
def AcksWith (i : Bytes → Instr) (command : Byte) (payload : Cfg → Bytes) : Prop :=
  ∀ (p : Bytes) (s : State), s.connOpen = true →
    (nextAnswer s = .ok → exec (i p) s =
      .next { takeAnswer s with out := s.out ++ [.tx (encodeFrame command (payload s.cfg)) .ok] }) ∧
    (nextAnswer s = .fail → exec (i p) s =
      .next { takeAnswer s with out := s.out ++
        [.tx (encodeFrame command (payload s.cfg)) .fail, .warn .ack (.command command)] })

/-- The telemetry ack of R97, its payload written out. -/
def synFrame (c : Cfg) : Bytes :=
  encodeFrame 0x21
    [c.synStatus, BitVec.ofNat 8 (c.synSpeed.toNat / 256), BitVec.ofNat 8 (c.synSpeed.toNat % 256),
      BitVec.ofNat 8 (c.synVoltage.toNat / 256), BitVec.ofNat 8 (c.synVoltage.toNat % 256), c.synTemp,
      BitVec.ofNat 8 (c.synPower.toNat / 256), BitVec.ofNat 8 (c.synPower.toNat % 256)]

/-- The ROUTE that ends a MOTOR row (R107): `i` in state `s`, whose frame `f` the row has handled into state
`t`, answers `t` when the frame matches no step and what XCHG.RESPONSE makes of `t` when it does. -/
def RoutesFrom (i : Instr) (f : Frame) (s t : State) : Prop :=
  (matchesStep f s = false → exec i s = .next t) ∧
    (matchesStep f s = true → exec i s = exec (.xchgResponse f) t ∧ ∃ u, exec i s = .next u)

/-- The telemetry fields of R103 written to `DS`, the light as it was. -/
def telemetryDs (d : Ds) (p0 p1 p2 p3 p4 p5 p6 p7 : Byte) : Ds :=
  { d with
    status := some p0
    speed := some (BitVec.ofNat 16 (p1.toNat * 256 + p2.toNat))
    voltage := some (BitVec.ofNat 16 (p3.toNat * 256 + p4.toNat))
    temperature := some p5
    power := some (BitVec.ofNat 16 (p6.toNat * 256 + p7.toNat)) }

/-- The five display events of R103 in their order. -/
def telemetryEvents (p0 p1 p2 p3 p4 p5 p6 p7 : Byte) : List OutEvent :=
  [.display (.status p0), .display (.speed (BitVec.ofNat 16 (p1.toNat * 256 + p2.toNat))),
    .display (.voltage (BitVec.ofNat 16 (p3.toNat * 256 + p4.toNat))), .display (.temperature p5),
    .display (.power (BitVec.ofNat 16 (p6.toNat * 256 + p7.toNat)))]

end Sys2Proof.Machine
end

