-- ==== Sys2Proof/Certificates/Slice0/Obligations.lean ====
section
/-! DEFINITION. The statements for the provers, in the order of the spec's files. A record `takeAnswer s` is
`s` with one answer of the environment's script used up (the model's own fields, assumption 2); `ret` is
the model's own field too (assumption 3). -/

open Sys2Proof Sys2Proof.Machine

/-- R67: the checksum is the sum of all bytes over the naturals, modulo 256, for every sequence. -/
def Obligations.ChecksumIsSumModulo256 : Prop :=
  ∀ b : Bytes, (sum8 b).toNat = (b.map BitVec.toNat).sum % 256

/-- R69, laws (a) to (e); the last clause says what (c) says is detected: in a valid frame, one changed byte
at an index from 2 to n-3 makes CODEC.DECODE answer `BadChecksum`. The spec marks R69 as its own inference from
R67. -/
def Obligations.ChecksumLaws : Prop :=
  (∀ a b : Bytes, sum8 (a ++ b) = sum8 a + sum8 b) ∧
  (∀ a b : Bytes, a.Perm b → sum8 a = sum8 b) ∧
  (∀ (a b : Bytes) (x d : Byte), sum8 (a ++ [x + d] ++ b) = sum8 (a ++ [x] ++ b) + d) ∧
  (∀ (a b c : Bytes) (x y d : Byte),
    sum8 (a ++ [x + d] ++ b ++ [y - d] ++ c) = sum8 (a ++ [x] ++ b ++ [y] ++ c)) ∧
  (∀ a b : Bytes, sum8 (a ++ [0x00] ++ b) = sum8 (a ++ b)) ∧
  (∀ (raw : Bytes) (f : Frame) (i : Nat) (v : Byte), decodeFrame raw = .ok f → 2 ≤ i → i + 2 < raw.length →
    raw[i]? ≠ some v → decodeFrame (raw.set i v) = .error .badChecksum)

/-- R70 and R68: the wire image of a frame, which byte sequences are valid frames, and that a valid frame is
the image of exactly one Frame (the spec marks that sentence as its own inference from R47). -/
def Obligations.ValidFramesAreWireImages : Prop :=
  (∀ (c : Byte) (p : Bytes),
    encodeFrame c p = [0x10, 0x02, c] ++ p ++ [sum8 ([0x10, 0x02, c] ++ p), 0x10, 0x03] ∧
      (encodeFrame c p).length = p.length + 6 ∧
      sum8 ([0x10, 0x02, c] ++ p) = 0x12 + c + sum8 p) ∧
  (∀ raw : Bytes, (∃ f, decodeFrame raw = .ok f) ↔
    8 ≤ raw.length ∧ raw.take 2 = [0x10, 0x02] ∧ raw.drop (raw.length - 2) = [0x10, 0x03] ∧
      raw[raw.length - 3]? = some (sum8 (raw.take (raw.length - 3)))) ∧
  (∀ (raw : Bytes) (f : Frame), decodeFrame raw = .ok f →
    raw[2]? = some f.command ∧ f.payload = (raw.take (raw.length - 3)).drop 3 ∧ 2 ≤ f.payload.length ∧
      encodeFrame f.command f.payload = raw ∧
      ∀ g : Frame, encodeFrame g.command g.payload = raw → g = f) ∧
  (∀ (c : Byte) (p : Bytes), (∃ f, decodeFrame (encodeFrame c p) = .ok f) ↔ 2 ≤ p.length)

/-- R72 and R73: the four checks in order, the first that fails reported. -/
def Obligations.DecodeReportsFirstFailure : Prop :=
  ∀ raw : Bytes,
    (raw.length < 8 → decodeFrame raw = .error .tooShort) ∧
    (8 ≤ raw.length → raw.take 2 ≠ [0x10, 0x02] → decodeFrame raw = .error .badHeader) ∧
    (8 ≤ raw.length → raw.take 2 = [0x10, 0x02] → raw.drop (raw.length - 2) ≠ [0x10, 0x03] →
      decodeFrame raw = .error .badTrailer) ∧
    (8 ≤ raw.length → raw.take 2 = [0x10, 0x02] → raw.drop (raw.length - 2) = [0x10, 0x03] →
      raw[raw.length - 3]? ≠ some (sum8 (raw.take (raw.length - 3))) →
      decodeFrame raw = .error .badChecksum) ∧
    (8 ≤ raw.length → raw.take 2 = [0x10, 0x02] → raw.drop (raw.length - 2) = [0x10, 0x03] →
      raw[raw.length - 3]? = some (sum8 (raw.take (raw.length - 3))) →
      ∃ c, raw[2]? = some c ∧ decodeFrame raw = .ok ⟨c, (raw.take (raw.length - 3)).drop 3⟩)

/-- R75, in the extent the spec marks as its own inference: both halves of the round trip, its failure for
short payloads, and the rejection of a frame whose checksum byte alone is changed. -/
def Obligations.CodecRoundTrip : Prop :=
  (∀ (c : Byte) (p : Bytes), 2 ≤ p.length → decodeFrame (encodeFrame c p) = .ok ⟨c, p⟩) ∧
  (∀ (raw : Bytes) (f : Frame), decodeFrame raw = .ok f → encodeFrame f.command f.payload = raw) ∧
  (∀ (c : Byte) (p : Bytes), p.length < 2 → decodeFrame (encodeFrame c p) = .error .tooShort) ∧
  (∀ (c k : Byte) (p : Bytes), 2 ≤ p.length → k ≠ sum8 ([0x10, 0x02, c] ++ p) →
    decodeFrame ([0x10, 0x02, c] ++ p ++ [k, 0x10, 0x03]) = .error .badChecksum)

/-- One changed byte anywhere in a valid frame makes CODEC.DECODE fail (R69 (c), R72). -/
def Obligations.SingleByteErrorIsRejected : Prop :=
  ∀ (raw : Bytes) (f : Frame) (i : Nat) (v : Byte), decodeFrame raw = .ok f → i < raw.length →
    raw[i]? ≠ some v → ∃ e, decodeFrame (raw.set i v) = .error e

/-- CKSUM.COMPUTE, CODEC.ENCODE and CODEC.DECODE run alone return their value and touch nothing else. That
the value is left in `ret` is the model's device (assumption 3). -/
def Obligations.PureOperationsReturnTheirValue : Prop :=
  (∀ (b : Bytes) (s : State),
    exec (.cksumCompute b) s = .next { s with ret := some (.byte (sum8 b)) }) ∧
  (∀ (c : Byte) (p : Bytes) (s : State),
    exec (.codecEncode c p) s = .next { s with ret := some (.bytes (encodeFrame c p)) }) ∧
  (∀ (raw : Bytes) (f : Frame) (s : State), decodeFrame raw = .ok f →
    exec (.codecDecode raw) s = .next { s with ret := some (.frame f) }) ∧
  (∀ (raw : Bytes) (e : FrameError) (s : State), decodeFrame raw = .error e →
    exec (.codecDecode raw) s = .next { s with ret := some (.frameError e) })

/-- Decoding the encoding of any well-formed instruction, in the context of its row, gives it back. -/
def Obligations.DecodeEncodeRoundTrip : Prop :=
  ∀ (ctx : Ctx) (i : Instr), i.wellFormed = true → (∀ c, i.context = some c → c = ctx) →
    decode ctx (encode i) = .ok i

/-- Words written out from the spec: the frame of S1, the telemetry of S2, an event code, and the words
that are no instruction. -/
def Obligations.WrittenOutWordsDecode : Prop :=
  decode .control (.frame [0x10, 0x02, 0x82, 0x02, 0x58, 0xEE, 0x10, 0x03]) = .ok (.ctrlSetSpeed [0x02, 0x58]) ∧
  decode .motor (.frame [0x10, 0x02, 0x82, 0x02, 0x58, 0xEE, 0x10, 0x03]) = .ok (.motorSetSpeed [0x02, 0x58]) ∧
  decode .motor (.frame [0x10, 0x02, 0x21, 0x0B, 0x00, 0x64, 0x00, 0xDC, 0x19, 0x00, 0x32, 0xC9, 0x10, 0x03]) =
    .ok (.motorTelemetry [0x0B, 0x00, 0x64, 0x00, 0xDC, 0x19, 0x00, 0x32]) ∧
  decode .control (.frame [0x10, 0x02, 0x82, 0x02, 0x58, 0xD4, 0x10, 0x03]) = .error (.frame .badChecksum) ∧
  decode .motor (.frame [0x10, 0x02, 0x99, 0x00, 0x00, 0xAB, 0x10, 0x03]) = .error (.unknownCommand 0x99) ∧
  decode .motor (.event 0x06 .none) = .ok .tick ∧
  decode .motor (.event 0x07 .none) = .error (.unknownEvent 0x07)

/-- R87, marked in the spec as its own inference from R77: what every feed leaves in the buffer. -/
def Obligations.FeedSettlesTheBuffer : Prop := ∀ rb chunk : Bytes, RbSettled (feed rb chunk).2

/-- R84, R85, R41 (c): a candidate begins 10 02, has 0x03 at its last index only and at least 4 bytes; what is
left is an end piece of the bytes received. -/
def Obligations.CandidatesAreFramed : Prop :=
  ∀ rb chunk : Bytes, (feed rb chunk).2 <:+ (rb ++ chunk) ∧
    ∀ cand ∈ (feed rb chunk).1, 4 ≤ cand.length ∧ cand.take 2 = [0x10, 0x02] ∧
      ∃ m, cand = m ++ [0x03] ∧ 0x03 ∉ m

/-- The steps of R77 (R78 to R85) as equations over the buffer after the append: too short; no header; a
header with no 0x03 after it; a candidate, and the feed of what follows it. -/
def Obligations.FeedFollowsItsSteps : Prop :=
  ∀ rb chunk : Bytes,
    ((rb ++ chunk).length < 4 → feed rb chunk = ([], rb ++ chunk)) ∧
    (4 ≤ (rb ++ chunk).length → NoHeader (rb ++ chunk) →
      feed rb chunk = ([], if (rb ++ chunk).getLast? = some 0x10 then [0x10] else [])) ∧
    (∀ g x, 4 ≤ (rb ++ chunk).length → rb ++ chunk = g ++ 0x10 :: 0x02 :: x → NoHeader (g ++ [0x10]) → 0x03 ∉ x →
      feed rb chunk = ([], 0x10 :: 0x02 :: x)) ∧
    (∀ g z, 4 ≤ (rb ++ chunk).length → rb ++ chunk = g ++ 0x10 :: 0x02 :: 0x03 :: z → NoHeader (g ++ [0x10]) →
      feed rb chunk = feed [] z) ∧
    (∀ g y z, 4 ≤ (rb ++ chunk).length → rb ++ chunk = g ++ 0x10 :: 0x02 :: (y ++ 0x03 :: z) →
      NoHeader (g ++ [0x10]) → y ≠ [] → 0x03 ∉ y →
      feed rb chunk = ((0x10 :: 0x02 :: (y ++ [0x03])) :: (feed [] z).1, (feed [] z).2))

/-- R88 (a): a valid frame with 0x03 at its last index only comes out whole, alone and with nothing left
over, however it is cut into chunks. -/
def Obligations.ReassemblyUnderChunking : Prop :=
  ∀ (raw : Bytes) (f : Frame) (chunks : List Bytes), decodeFrame raw = .ok f → 0x03 ∉ raw.dropLast →
    chunks.flatten = raw → feedAll [] chunks = ([raw], [])

/-- R88 (b): garbage that holds no header is discarded and the frame behind it comes out. -/
def Obligations.GarbageIsDiscarded : Prop :=
  ∀ (g raw : Bytes) (f : Frame), NoHeader g → decodeFrame raw = .ok f → 0x03 ∉ raw.dropLast →
    feed [] (g ++ raw) = ([raw], [])

/-- R88 (c): the candidates of a byte stream do not depend on where the chunk boundaries fall. -/
def Obligations.CandidatesIgnoreChunkBoundaries : Prop :=
  ∀ a b : List Bytes, a.flatten = b.flatten → (feedAll [] a).1 = (feedAll [] b).1

/-- R171, R88 (d): a valid frame with 0x03 before its last index is never yielded whole; when the first one
is past the command it is cut there. -/
def Obligations.InteriorTrailerTruncates : Prop :=
  ∀ (raw : Bytes) (f : Frame), decodeFrame raw = .ok f → 0x03 ∈ raw.dropLast →
    raw ∉ (feed [] raw).1 ∧
      ∀ e, find raw 0x03 0 = some e → 3 ≤ e → ∃ rest, (feed [] raw).1 = raw.take (e + 1) :: rest

/-- RSM.FEED run alone rewrites the buffer and returns the candidates (in `ret`, assumption 3); past a finite
capacity it is refused (R86). -/
def Obligations.RsmFeedRunsAlone : Prop :=
  ∀ (chunk : Bytes) (s : State),
    ((∀ cap, s.cfg.rbCap = some cap → s.rb.length + chunk.length ≤ cap) →
      exec (.rsmFeed chunk) s =
        .next { s with rb := (feed s.rb chunk).2, ret := some (.candidates (feed s.rb chunk).1) }) ∧
    (∀ cap, s.cfg.rbCap = some cap → cap < s.rb.length + chunk.length →
      exec (.rsmFeed chunk) s = .refused .rbOverflow)

/-- R92 to R96: the five fixed acks of the CONTROL context. -/
def Obligations.ControlRowsSendFixedAcks : Prop :=
  AcksWith .ctrlStop 0x80 Cfg.ackStop ∧ AcksWith .ctrlRun 0x81 Cfg.ackRun ∧
    AcksWith .ctrlSetSpeed 0x82 Cfg.ackSetSpeed ∧ AcksWith .ctrlGear 0x83 Cfg.ackGear ∧
    AcksWith .ctrlVersion 0x20 Cfg.ackVersion

/-- R97: the synthesized telemetry, and the light after a successful write only. -/
def Obligations.ControlTelemetryRow : Prop :=
  ∀ (p : Bytes) (s : State), s.connOpen = true →
    (∀ c, nextAnswer s = .ok → lightOf s.cfg.synStatus = some c → exec (.ctrlTelemetry p) s =
      .next { takeAnswer s with
        ds := { s.ds with light := .lit c }
        out := s.out ++ [.tx (synFrame s.cfg) .ok, .display (.light c)] }) ∧
    (nextAnswer s = .ok → lightOf s.cfg.synStatus = none → exec (.ctrlTelemetry p) s =
      .next { takeAnswer s with
        out := s.out ++ [.tx (synFrame s.cfg) .ok, .diag .unknownStatus (.status s.cfg.synStatus)] }) ∧
    (nextAnswer s = .fail → exec (.ctrlTelemetry p) s =
      .next { takeAnswer s with
        out := s.out ++ [.tx (synFrame s.cfg) .fail, .warn .ack (.command 0x21)] })

/-- What the operations that write do on a closed connection, where the RX pipeline never runs them: a CONTROL
row only warns, a step that would be sent is warned of and the exchange cancelled. The model's reading,
assumption 6. -/
def Obligations.WritesOnClosedPortOnlyWarn : Prop :=
  (∀ (f : Frame) (st nx : ExchangeStep) (s : State), s.connOpen = false → s.xc.active = true →
    s.xc.steps[s.xc.cursor]? = some st → s.xc.steps[s.xc.cursor + 1]? = some nx →
    (f.command = st.request.command → exec (.xchgResponse f) s =
      .next { s with
        xc := ⟨false, [], 0, false, 0⟩
        out := s.out ++ [.handler s.xc.cursor st.handler f, .warn .exchangeStep (.stepIndex (s.xc.cursor + 1))] }) ∧
    (s.xc.timerArmed = true → exec .xchgTimeout s =
      .next { s with
        xc := ⟨false, [], 0, false, 0⟩
        out := s.out ++ [.diag .exchangeTimeout (.stepIndex s.xc.cursor),
          .warn .exchangeStep (.stepIndex (s.xc.cursor + 1))] })) ∧
  ∀ (p : Bytes) (s : State), s.connOpen = false →
    exec (.ctrlStop p) s = .next { s with out := s.out ++ [.warn .ack (.command 0x80)] } ∧
    exec (.ctrlRun p) s = .next { s with out := s.out ++ [.warn .ack (.command 0x81)] } ∧
    exec (.ctrlSetSpeed p) s = .next { s with out := s.out ++ [.warn .ack (.command 0x82)] } ∧
    exec (.ctrlGear p) s = .next { s with out := s.out ++ [.warn .ack (.command 0x83)] } ∧
    exec (.ctrlVersion p) s = .next { s with out := s.out ++ [.warn .ack (.command 0x20)] } ∧
    exec (.ctrlTelemetry p) s = .next { s with out := s.out ++ [.warn .ack (.command 0x21)] }

/-- R98 to R100: the three MOTOR rows that decode nothing. -/
def Obligations.MotorRowsWithoutDecode : Prop :=
  ∀ (p : Bytes) (s : State),
    RoutesFrom (.motorStop p) ⟨0x80, p⟩ s s ∧ RoutesFrom (.motorRun p) ⟨0x81, p⟩ s s ∧
      RoutesFrom (.motorSetSpeed p) ⟨0x82, p⟩ s s

/-- R101: the two gears, further bytes ignored. -/
def Obligations.MotorGearRow : Prop :=
  ∀ (a b : Byte) (rest : Bytes) (s : State),
    RoutesFrom (.motorGear (a :: b :: rest)) ⟨0x83, a :: b :: rest⟩ s
      { s with
        ds := { s.ds with speedGear := some a, timeGear := some b }
        out := s.out ++ [.display (.gear a b)] }

/-- R102: the whole payload is the version. -/
def Obligations.MotorVersionRow : Prop :=
  ∀ (p : Bytes) (s : State),
    RoutesFrom (.motorVersion p) ⟨0x20, p⟩ s
      { s with ds := { s.ds with version := some p }, out := s.out ++ [.display (.version p)] }

/-- R103: the telemetry fields, then the light or the diagnostic of an unknown status; a payload shorter than
8 bytes only raises `ShortPayload`. -/
def Obligations.MotorTelemetryRow : Prop :=
  (∀ (p : Bytes) (s : State), p.length < 8 → exec (.motorTelemetry p) s =
    .next { s with out := s.out ++ [.diag .shortPayload (.payloadLength 0x21 p.length)] }) ∧
  ∀ (p0 p1 p2 p3 p4 p5 p6 p7 : Byte) (rest : Bytes) (s : State),
    (∀ c, lightOf p0 = some c →
      RoutesFrom (.motorTelemetry (p0 :: p1 :: p2 :: p3 :: p4 :: p5 :: p6 :: p7 :: rest))
        ⟨0x21, p0 :: p1 :: p2 :: p3 :: p4 :: p5 :: p6 :: p7 :: rest⟩ s
        { s with
          ds := { telemetryDs s.ds p0 p1 p2 p3 p4 p5 p6 p7 with light := .lit c }
          out := s.out ++ telemetryEvents p0 p1 p2 p3 p4 p5 p6 p7 ++ [.display (.light c)] }) ∧
    (lightOf p0 = none →
      RoutesFrom (.motorTelemetry (p0 :: p1 :: p2 :: p3 :: p4 :: p5 :: p6 :: p7 :: rest))
        ⟨0x21, p0 :: p1 :: p2 :: p3 :: p4 :: p5 :: p6 :: p7 :: rest⟩ s
        { s with
          ds := telemetryDs s.ds p0 p1 p2 p3 p4 p5 p6 p7
          out := s.out ++ telemetryEvents p0 p1 p2 p3 p4 p5 p6 p7 ++ [.diag .unknownStatus (.status p0)] })

/-- R106: a short telemetry response, dispatched or received in the MOTOR context, is dropped with its
diagnostic: nothing written, displayed or routed. A CONTROL row does not read the payload, so it cannot raise
it. -/
def Obligations.ShortTelemetryIsDropped : Prop :=
  ∀ (p : Bytes) (s : State), p.length < 8 →
    (s.cfg.ctx = .motor → exec (.dispDispatch ⟨0x21, p⟩) s =
      .next { s with out := s.out ++ [.diag .shortPayload (.payloadLength 0x21 p.length)] }) ∧
    (∀ chunk raw, s.cfg.ctx = .motor → s.connOpen = true →
      (∀ cap, s.cfg.rbCap = some cap → s.rb.length + chunk.length ≤ cap) →
      (feed s.rb chunk).1 = [raw] → decodeFrame raw = .ok ⟨0x21, p⟩ →
      exec (.rx chunk) s =
        .next { s with
          rb := (feed s.rb chunk).2
          out := s.out ++ [.frame ⟨0x21, p⟩, .diag .shortPayload (.payloadLength 0x21 p.length)] }) ∧
    (∀ q : Bytes, exec (.ctrlTelemetry p) s = exec (.ctrlTelemetry q) s)

/-- R104: the status-to-light function on every code. -/
def Obligations.LightOfStatusCode : Prop :=
  ∀ code : Byte,
    (lightOf code = some .red ↔ code = 0x00) ∧ (lightOf code = some .green ↔ code = 0x0B) ∧
    (lightOf code = some .blue ↔ (0x20 ≤ code.toNat ∧ code.toNat ≤ 0x2B) ∨ code = 0x50) ∧
    (lightOf code = none ↔ ¬ (code = 0x00 ∨ code = 0x0B ∨ (0x20 ≤ code.toNat ∧ code.toNat ≤ 0x2B) ∨ code = 0x50))

/-- R90: DISP.DISPATCH runs the row of the context and the command byte. -/
def Obligations.DispatchRunsTheRow : Prop :=
  ∀ (p : Bytes) (s : State),
    (s.cfg.ctx = .control →
      exec (.dispDispatch ⟨0x80, p⟩) s = exec (.ctrlStop p) s ∧
      exec (.dispDispatch ⟨0x81, p⟩) s = exec (.ctrlRun p) s ∧
      exec (.dispDispatch ⟨0x82, p⟩) s = exec (.ctrlSetSpeed p) s ∧
      exec (.dispDispatch ⟨0x83, p⟩) s = exec (.ctrlGear p) s ∧
      exec (.dispDispatch ⟨0x20, p⟩) s = exec (.ctrlVersion p) s ∧
      exec (.dispDispatch ⟨0x21, p⟩) s = exec (.ctrlTelemetry p) s) ∧
    (s.cfg.ctx = .motor →
      exec (.dispDispatch ⟨0x80, p⟩) s = exec (.motorStop p) s ∧
      exec (.dispDispatch ⟨0x81, p⟩) s = exec (.motorRun p) s ∧
      exec (.dispDispatch ⟨0x82, p⟩) s = exec (.motorSetSpeed p) s ∧
      exec (.dispDispatch ⟨0x83, p⟩) s = exec (.motorGear p) s ∧
      exec (.dispDispatch ⟨0x20, p⟩) s = exec (.motorVersion p) s ∧
      exec (.dispDispatch ⟨0x21, p⟩) s = exec (.motorTelemetry p) s)

/-- DISP.DISPATCH of a decoded frame (its payload has at least 2 bytes, R90) answers a next state. -/
def Obligations.DispatchCompletes : Prop :=
  ∀ (f : Frame) (s : State), 2 ≤ f.payload.length →
    ∃ t, exec (.dispDispatch f) s = .next t ∧ t.cfg = s.cfg ∧ t.connOpen = s.connOpen ∧ t.rb = s.rb ∧
      t.ret = s.ret ∧ t.inbox = s.inbox ∧ (s.cfg.ctx = .control → t.xc = s.xc)

/-- R105: a command byte outside the table, in either context, dispatched or received: announced when
received, logged, and nothing else. -/
def Obligations.UnknownCommandIsDropped : Prop :=
  ∀ (f : Frame) (s : State), f.command ∉ ([0x80, 0x81, 0x82, 0x83, 0x20, 0x21] : Bytes) →
    exec (.dispDispatch f) s =
      .next { s with out := s.out ++ [.diag .unknownCommand (.command f.command)] } ∧
    (∀ chunk raw, s.connOpen = true → (∀ cap, s.cfg.rbCap = some cap → s.rb.length + chunk.length ≤ cap) →
      (feed s.rb chunk).1 = [raw] → decodeFrame raw = .ok f →
      exec (.rx chunk) s =
        .next { s with
          rb := (feed s.rb chunk).2
          out := s.out ++ [.frame f, .diag .unknownCommand (.command f.command)] })

/-- Two instances over one link (R97, R103, D4): a CONTROL row CTRL.TELEMETRY on an open connection transmits
bytes that decode to a frame whose dispatch in any MOTOR instance sets its display to the values of the
sender's configuration; and the payload of that row, dispatched by itself, does the same. -/
def Obligations.SynthesizedTelemetryDecodesBack : Prop :=
  (∀ (q : Bytes) (a s : State), a.connOpen = true → s.cfg.ctx = .motor → ∃ u b rest f t,
    exec (.ctrlTelemetry q) a = .next u ∧ u.out = a.out ++ .tx b (nextAnswer a) :: rest ∧
      decodeFrame b = .ok f ∧ exec (.dispDispatch f) s = .next t ∧
      t.ds.status = some a.cfg.synStatus ∧ t.ds.speed = some a.cfg.synSpeed ∧
      t.ds.voltage = some a.cfg.synVoltage ∧ t.ds.temperature = some a.cfg.synTemp ∧
      t.ds.power = some a.cfg.synPower) ∧
  (∀ (c : Cfg) (s : State), ∃ t, exec (.motorTelemetry (telemetryPayload (synTelemetry c))) s = .next t ∧
    t.ds.status = some c.synStatus ∧ t.ds.speed = some c.synSpeed ∧ t.ds.voltage = some c.synVoltage ∧
    t.ds.temperature = some c.synTemp ∧ t.ds.power = some c.synPower)

/-- R112 with R119 and R125: the three ends of XCHG.START under the preconditions of R126. A running exchange
leaves no trace of its own in any of them. -/
def Obligations.XchgStartSendsTheFirstStep : Prop :=
  ∀ (first : ExchangeStep) (rest : List ExchangeStep) (s : State), s.cfg.ctx = .motor →
    (∀ m, s.cfg.maxSteps = some m → (first :: rest).length ≤ m) →
    (∀ st ∈ first :: rest, 1 ≤ st.timeout) →
    (s.connOpen = true → nextAnswer s = .ok → exec (.xchgStart (first :: rest)) s =
      .next { takeAnswer s with
        xc := ⟨true, first :: rest, 0, true, first.timeout⟩
        out := s.out ++ [.tx (encodeFrame first.request.command first.request.payload) .ok] }) ∧
    (s.connOpen = true → nextAnswer s = .fail → exec (.xchgStart (first :: rest)) s =
      .next { takeAnswer s with
        xc := ⟨false, [], 0, false, 0⟩
        out := s.out ++ [.tx (encodeFrame first.request.command first.request.payload) .fail,
          .warn .exchangeStep (.stepIndex 0)] }) ∧
    (s.connOpen = false → exec (.xchgStart (first :: rest)) s =
      .next { s with
        xc := if s.xc.active then ⟨false, [], 0, false, 0⟩ else s.xc
        out := s.out ++ [.warn .start .portClosed] })

/-- R126: a start that breaks a precondition is refused. -/
def Obligations.XchgStartRefusesBrokenPreconditions : Prop :=
  ∀ (steps : List ExchangeStep) (s : State),
    (s.cfg.ctx = .control → exec (.xchgStart steps) s = .refused .xchgInControl) ∧
    (s.cfg.ctx = .motor → steps = [] → exec (.xchgStart steps) s = .refused .xchgNoSteps) ∧
    (∀ m, s.cfg.ctx = .motor → steps ≠ [] → s.cfg.maxSteps = some m → m < steps.length →
      exec (.xchgStart steps) s = .refused .xchgTooManySteps) ∧
    (s.cfg.ctx = .motor → (∀ m, s.cfg.maxSteps = some m → steps.length ≤ m) → (∃ st ∈ steps, st.timeout = 0) →
      exec (.xchgStart steps) s = .refused .xchgZeroTimeout)

/-- R115 with R117 and R125: the ends of XCHG.RESPONSE for a frame that matches the current step: the next
step is sent, its write fails, or there is none and the exchange is complete. -/
def Obligations.XchgResponseAdvances : Prop :=
  ∀ (f : Frame) (st : ExchangeStep) (s : State), s.xc.active = true → s.xc.steps[s.xc.cursor]? = some st →
    f.command = st.request.command →
    (∀ nx, s.xc.steps[s.xc.cursor + 1]? = some nx → s.connOpen = true → nextAnswer s = .ok →
      exec (.xchgResponse f) s =
        .next { takeAnswer s with
          xc := ⟨true, s.xc.steps, s.xc.cursor + 1, true, nx.timeout⟩
          out := s.out ++ [.handler s.xc.cursor st.handler f,
            .tx (encodeFrame nx.request.command nx.request.payload) .ok] }) ∧
    (∀ nx, s.xc.steps[s.xc.cursor + 1]? = some nx → s.connOpen = true → nextAnswer s = .fail →
      exec (.xchgResponse f) s =
        .next { takeAnswer s with
          xc := ⟨false, [], 0, false, 0⟩
          out := s.out ++ [.handler s.xc.cursor st.handler f,
            .tx (encodeFrame nx.request.command nx.request.payload) .fail,
            .warn .exchangeStep (.stepIndex (s.xc.cursor + 1))] }) ∧
    (s.xc.steps.length = s.xc.cursor + 1 →
      exec (.xchgResponse f) s =
        .next { s with
          xc := ⟨false, [], 0, false, 0⟩
          out := s.out ++ [.handler s.xc.cursor st.handler f, .done false] })

/-- R116 with R117, R122 and R125: the ends of XCHG.TIMEOUT; no handler is notified and the step's request
is not sent again. That it runs alone with ticks left is the model's choice, which R127 allows (assumption 8). -/
def Obligations.XchgTimeoutAdvances : Prop :=
  ∀ s : State, s.xc.active = true → s.xc.timerArmed = true → s.xc.cursor < s.xc.steps.length →
    (∀ nx, s.xc.steps[s.xc.cursor + 1]? = some nx → s.connOpen = true → nextAnswer s = .ok →
      exec .xchgTimeout s =
        .next { takeAnswer s with
          xc := ⟨true, s.xc.steps, s.xc.cursor + 1, true, nx.timeout⟩
          out := s.out ++ [.diag .exchangeTimeout (.stepIndex s.xc.cursor),
            .tx (encodeFrame nx.request.command nx.request.payload) .ok] }) ∧
    (∀ nx, s.xc.steps[s.xc.cursor + 1]? = some nx → s.connOpen = true → nextAnswer s = .fail →
      exec .xchgTimeout s =
        .next { takeAnswer s with
          xc := ⟨false, [], 0, false, 0⟩
          out := s.out ++ [.diag .exchangeTimeout (.stepIndex s.xc.cursor),
            .tx (encodeFrame nx.request.command nx.request.payload) .fail,
            .warn .exchangeStep (.stepIndex (s.xc.cursor + 1))] }) ∧
    (s.xc.steps.length = s.xc.cursor + 1 →
      exec .xchgTimeout s =
        .next { s with
          xc := ⟨false, [], 0, false, 0⟩
          out := s.out ++ [.diag .exchangeTimeout (.stepIndex s.xc.cursor), .done true] })

/-- R120: TICK on a disarmed timer, short of expiry, and on its last tick, which is XCHG.TIMEOUT. -/
def Obligations.TickCountsDown : Prop :=
  ∀ s : State,
    (s.xc.timerArmed = false → exec .tick s = .next s) ∧
    (s.xc.timerArmed = true → 1 < s.xc.timerRem →
      exec .tick s = .next { s with xc := { s.xc with timerRem := s.xc.timerRem - 1 } }) ∧
    (s.xc.active = true → s.xc.timerArmed = true → s.xc.timerRem ≤ 1 →
      exec .tick s = exec .xchgTimeout s ∧ ∃ t, exec .tick s = .next t)

/-- R120: a step with `r` ticks left counts for `r - 1` ticks, doing nothing else, and the `r`-th is its
timeout. -/
def Obligations.TimerExpiresOnItsLastTick : Prop :=
  ∀ s : State, s.xc.active = true → s.xc.timerArmed = true → 1 ≤ s.xc.timerRem →
    (∀ n, n < s.xc.timerRem →
      ticks n s = .next { s with xc := { s.xc with timerRem := s.xc.timerRem - n } }) ∧
    ticks s.xc.timerRem s = exec .xchgTimeout s

/-- R111, R185: with ticks arriving, a running exchange is idle after at most the sum of the ticks its steps
have left, whatever the transport answers. -/
def Obligations.ExchangeEndsWithinItsTimeouts : Prop :=
  ∀ s : State, s.xc.active = true → XcWaiting s.cfg s.xc →
    ∃ n, n ≤ ticksLeft s.xc ∧ ∃ t, ticks n s = .next t ∧ t.xc.active = false

/-- R118: XCHG.CANCEL makes the record idle and emits nothing; after it a tick does nothing and no frame
matches a step. -/
def Obligations.XchgCancelIsSilent : Prop :=
  ∀ s : State, exec .xchgCancel s = .next { s with xc := ⟨false, [], 0, false, 0⟩ } ∧
    exec .tick { s with xc := ⟨false, [], 0, false, 0⟩ } = .next { s with xc := ⟨false, [], 0, false, 0⟩ } ∧
    ∀ f : Frame, matchesStep f { s with xc := ⟨false, [], 0, false, 0⟩ } = false

/-- R129 and R130: a failed and a redundant open only warn; a good one opens with an empty buffer. -/
def Obligations.ConnOpenOpensOnce : Prop :=
  ∀ (port : Bytes) (baud : Nat) (s : State),
    (s.connOpen = false → exec (.connOpen port baud .ok) s = .next { s with connOpen := true, rb := [] }) ∧
    (s.connOpen = false → exec (.connOpen port baud .fail) s =
      .next { s with out := s.out ++ [.warn .openPort .ioError] }) ∧
    (∀ r, s.connOpen = true → exec (.connOpen port baud r) s =
      .next { s with out := s.out ++ [.warn .openPort .alreadyOpen] })

/-- R131: CONN.CLOSE cancels, clears the buffer and closes; on a closed connection it does nothing. -/
def Obligations.ConnCloseCancelsAndClears : Prop :=
  ∀ s : State,
    (s.connOpen = true → exec .connClose s =
      .next { s with connOpen := false, rb := [], xc := ⟨false, [], 0, false, 0⟩ }) ∧
    (s.connOpen = false → exec .connClose s = .next s)

/-- R132 and R133: CONN.SEND writes one frame, unchecked; a failed write and a closed port only warn. -/
def Obligations.ConnSendWritesOneFrame : Prop :=
  ∀ (c : Byte) (p : Bytes) (s : State),
    (s.connOpen = true → nextAnswer s = .ok → exec (.connSend c p) s =
      .next { takeAnswer s with out := s.out ++ [.tx (encodeFrame c p) .ok] }) ∧
    (s.connOpen = true → nextAnswer s = .fail → exec (.connSend c p) s =
      .next { takeAnswer s with out := s.out ++ [.tx (encodeFrame c p) .fail, .warn .send (.command c)] }) ∧
    (s.connOpen = false → exec (.connSend c p) s = .next { s with out := s.out ++ [.warn .send .portClosed] })

/-- R138: bytes received on a closed connection are ignored. -/
def Obligations.RxIgnoredWhileClosed : Prop :=
  ∀ (chunk : Bytes) (s : State), s.connOpen = false → exec (.rx chunk) s = .next s

/-- R136, with R135 and R141 to R145: a chunk that yields no candidate, one that fails decoding, one that
decodes; of several, the first is processed and the rest in the state it leaves, whether or not it decoded;
and the error classes of the four decoding errors, the nine codes, and the class each event carries. -/
def Obligations.RxProcessesACandidate : Prop :=
  (∀ (chunk : Bytes) (s : State), s.connOpen = true →
    (∀ cap, s.cfg.rbCap = some cap → s.rb.length + chunk.length ≤ cap) →
    ((feed s.rb chunk).1 = [] → exec (.rx chunk) s = .next { s with rb := (feed s.rb chunk).2 }) ∧
    (∀ raw e, (feed s.rb chunk).1 = [raw] → decodeFrame raw = .error e →
      exec (.rx chunk) s =
        .next { s with
          rb := (feed s.rb chunk).2
          out := s.out ++ [.diag (errorClassOf e) (.candidate raw)] }) ∧
    (∀ raw f, (feed s.rb chunk).1 = [raw] → decodeFrame raw = .ok f →
      exec (.rx chunk) s =
        exec (.dispDispatch f) { s with rb := (feed s.rb chunk).2, out := s.out ++ [.frame f] }) ∧
    (∀ raw rest e, (feed s.rb chunk).1 = raw :: rest → decodeFrame raw = .error e →
      exec (.rx chunk) s =
        processAll rest { s with
          rb := (feed s.rb chunk).2
          out := s.out ++ [.diag (errorClassOf e) (.candidate raw)] }) ∧
    (∀ raw rest f, (feed s.rb chunk).1 = raw :: rest → decodeFrame raw = .ok f →
      ∃ u, exec (.dispDispatch f) { s with rb := (feed s.rb chunk).2, out := s.out ++ [.frame f] } = .next u ∧
        exec (.rx chunk) s = processAll rest u)) ∧
  (∀ u : State, processAll [] u = .next u) ∧
  (∀ (raw : Bytes) (rest : List Bytes) (e : FrameError) (u : State), decodeFrame raw = .error e →
    processAll (raw :: rest) u =
      processAll rest { u with out := u.out ++ [.diag (errorClassOf e) (.candidate raw)] }) ∧
  (∀ (raw : Bytes) (rest : List Bytes) (f : Frame) (u : State), decodeFrame raw = .ok f →
    ∃ v, exec (.dispDispatch f) { u with out := u.out ++ [.frame f] } = .next v ∧
      processAll (raw :: rest) u = processAll rest v) ∧
  (errorClassOf .tooShort = .tooShort ∧ errorClassOf .badHeader = .badHeader ∧
    errorClassOf .badTrailer = .badTrailer ∧ errorClassOf .badChecksum = .badChecksum) ∧
  (ErrorClass.code .tooShort = 0x01 ∧ ErrorClass.code .badHeader = 0x02 ∧ ErrorClass.code .badTrailer = 0x03 ∧
    ErrorClass.code .badChecksum = 0x04 ∧ ErrorClass.code .unknownCommand = 0x05 ∧
    ErrorClass.code .exchangeTimeout = 0x06 ∧ ErrorClass.code .transportError = 0x07 ∧
    ErrorClass.code .unknownStatus = 0x08 ∧ ErrorClass.code .shortPayload = 0x09) ∧
  (∀ c i, OutEvent.errorClass (.diag c i) = some c) ∧
  (∀ op d, OutEvent.errorClass (.warn op d) = some .transportError)

/-- R135, R150, R156: an RX event always completes; no error in a candidate stops it or closes the
connection, and the buffer is what the feed left. -/
def Obligations.RxCompletes : Prop :=
  ∀ (chunk : Bytes) (s : State), s.connOpen = true →
    (∀ cap, s.cfg.rbCap = some cap → s.rb.length + chunk.length ≤ cap) →
    ∃ t, exec (.rx chunk) s = .next t ∧ t.rb = (feed s.rb chunk).2 ∧ t.connOpen = true ∧ t.cfg = s.cfg ∧
      t.ret = s.ret ∧ t.inbox = s.inbox

/-- R135: receiving the whole frame of a table command, with no interior 0x03, on an empty buffer is its
announcement and then exactly its row of the opcode table. -/
def Obligations.RxRunsTheTableRow : Prop :=
  ∀ (c : Command) (p : Bytes) (s : State), s.connOpen = true → s.rb = [] → 2 ≤ p.length → 0x03 ∉ p →
    sum8 ([0x10, 0x02, c.code] ++ p) ≠ 0x03 → (∀ cap, s.cfg.rbCap = some cap → p.length + 6 ≤ cap) →
    exec (.rx (encodeFrame c.code p)) s =
      exec (frameRow s.cfg.ctx c p) { s with out := s.out ++ [.frame ⟨c.code, p⟩] }

/-- R109, R110: in the CONTROL context an RX writes one ack per frame of a table command and no other, and
of the state outside `RB` only the light. -/
def Obligations.ControlAnswersEachTableFrameOnce : Prop :=
  ∀ (chunk : Bytes) (s t : State), s.cfg.ctx = .control → s.connOpen = true → exec (.rx chunk) s = .next t →
    t.xc = s.xc ∧ t.ds = { s.ds with light := t.ds.light } ∧
      t.out.countP IsTx = s.out.countP IsTx + ((feed s.rb chunk).1.countP isTableFrame)

/-- R89, R109: in the MOTOR context with no exchange in flight an RX transmits nothing and leaves the
exchange record alone. -/
def Obligations.IdleMotorNeverTransmitsOnReceive : Prop :=
  ∀ (chunk : Bytes) (s t : State), s.cfg.ctx = .motor → s.xc.active = false → exec (.rx chunk) s = .next t →
    t.xc = s.xc ∧ t.out.countP IsTx = s.out.countP IsTx

/-- R166 and R167: RESET in any state. That a configuration with a short `ACK_*` is taken as it is (assumption 7)
and that `ret` is cleared and the environment's words and answers kept (assumptions 2, 4 and 14) is the
model's choice. -/
def Obligations.ResetIsTotal : Prop :=
  ∀ (c : Cfg) (s : State), exec (.reset c) s =
    .next
      { cfg := c, connOpen := false, rb := [], xc := ⟨false, [], 0, false, 0⟩
        ds := ⟨none, none, none, none, none, none, none, none, .none⟩
        out := [], ret := none, inbox := s.inbox, answers := s.answers, draws := s.draws }

/-- R24: the reset values the spec gives (`CFG` has none). -/
def Obligations.ResetStateValues : Prop :=
  State.reset.connOpen = false ∧ State.reset.rb = [] ∧ State.reset.xc = ⟨false, [], 0, false, 0⟩ ∧
    State.reset.ds = ⟨none, none, none, none, none, none, none, none, .none⟩ ∧ State.reset.out = []

/-- The state after reset meets the invariant. -/
def Obligations.ResetIsSound : Prop := BlockSound State.reset ∧ InputsOnly State.reset

/-- R14 to R17, R87, R107, R126, R129, R138: every step on input events keeps the invariant. -/
def Obligations.StepKeepsTheBlockSound : Prop :=
  ∀ s t : State, BlockSound s → InputsOnly s → step s = .next t → BlockSound t ∧ InputsOnly t

/-- R131, R178: after a close, whatever input events come without XCHG.START, the exchange record stays idle and
no handler notice, completion or exchange timeout follows; and in the MOTOR context, where nothing else
transmits, no transmission follows either but what a CONN.SEND sends. -/
def Obligations.NothingFiresAfterClose : Prop :=
  ∀ (s t u : State) (events : List Instr), BlockSound s → exec .connClose s = .next t →
    (∀ i ∈ events, i.isInput = true ∧ i.isStart = false) → runEvents events t = .next u →
    u.xc = ⟨false, [], 0, false, 0⟩ ∧
    u.out.countP IsExchangeNotice ≤ t.out.countP IsExchangeNotice ∧
    (s.cfg.ctx = .motor → (∀ i ∈ events, i.isReset = false ∧ i.isSend = false) →
      u.out.countP IsTx = t.out.countP IsTx)

/-- R21, R12: each component is written by the operations of the table only; an operation not listed
touches nothing. That none, RESET included, touches the environment's pending inputs is the model's choice
(assumptions 4 and 14). -/
def Obligations.StateIsTouchedByItsOperationsOnly : Prop :=
  ∀ (i : Instr) (s t : State), exec i s = .next t →
    (i.isReset = false → t.cfg = s.cfg) ∧ (i.writesOpen = false → t.connOpen = s.connOpen) ∧
    (i.writesRb = false → t.rb = s.rb) ∧ (i.writesXc = false → t.xc = s.xc) ∧
    (i.writesDs = false → t.ds = s.ds) ∧ t.inbox = s.inbox

/-- R108, R7: outside RESET the output only grows, and the display cache is what its new display events
make of the old one. -/
def Obligations.DisplayEventsReplayTheCache : Prop :=
  ∀ (i : Instr) (s t : State), exec i s = .next t → i.isReset = false →
    ∃ new, t.out = s.out ++ new ∧ t.ds = replay s.ds new

/-- R133, R134, R138: nothing is transmitted while the connection is closed. For a CONTROL row, XCHG.RESPONSE and
XCHG.TIMEOUT run alone this is the model's reading (assumption 6). -/
def Obligations.NothingIsSentWhileClosed : Prop :=
  ∀ (i : Instr) (s t : State), s.connOpen = false → exec i s = .next t →
    t.out.countP IsTx ≤ s.out.countP IsTx

/-- R16, R46, R123: while an exchange runs its table does not change, its cursor never moves back, and no
operation but an RX moves it by more than one; only XCHG.START makes one active. -/
def Obligations.CursorNeverMovesBack : Prop :=
  ∀ (i : Instr) (s t : State), exec i s = .next t → i.isStart = false → t.xc.active = true →
    s.xc.active = true ∧ t.xc.steps = s.xc.steps ∧ s.xc.cursor ≤ t.xc.cursor ∧
      (i.isRx = false → t.xc.cursor ≤ s.xc.cursor + 1)

/-- A step takes the next word and runs the instruction it decodes to; with nothing to take the machine holds its
state. How the coming words are held is the model's choice (assumption 4). A frame presented by itself is
the model's own input (assumption 11), handled as PROCESS handles a candidate: announced and run on an open
connection, dropped with its diagnostic when it fails decoding or its command is unassigned, ignored on a
closed one. -/
def Obligations.StepRunsTheDecodedInstruction : Prop :=
  (∀ s : State, fetch s = none → step s = .next s) ∧
  (∀ (s t : State) (w : InWord), fetch s = some (w, t) → ∃ later, t = { s with inbox := later }) ∧
  (∀ (s t : State) (code : Byte) (args : EventArgs) (i : Instr), fetch s = some (.event code args, t) →
    decode t.cfg.ctx (.event code args) = .ok i → step s = exec i t) ∧
  (∀ (s t : State) (raw : Bytes) (f : Frame) (i : Instr), fetch s = some (.frame raw, t) → t.connOpen = true →
    decodeFrame raw = .ok f → decode t.cfg.ctx (.frame raw) = .ok i →
    step s = exec i { t with out := t.out ++ [.frame f] }) ∧
  (∀ (s t : State) (raw : Bytes) (e : FrameError), fetch s = some (.frame raw, t) → t.connOpen = true →
    decodeFrame raw = .error e →
    decode t.cfg.ctx (.frame raw) = .error (.frame e) ∧
      step s = .next { t with out := t.out ++ [.diag (errorClassOf e) (.candidate raw)] }) ∧
  (∀ (s t : State) (raw : Bytes) (f : Frame), fetch s = some (.frame raw, t) → t.connOpen = true →
    decodeFrame raw = .ok f → f.command ∉ ([0x80, 0x81, 0x82, 0x83, 0x20, 0x21] : Bytes) →
    decode t.cfg.ctx (.frame raw) = .error (.unknownCommand f.command) ∧
      step s = .next { t with out := t.out ++ [.frame f, .diag .unknownCommand (.command f.command)] }) ∧
  (∀ (s t : State) (raw : Bytes), fetch s = some (.frame raw, t) → t.connOpen = false → step s = .next t) ∧
  (∀ (s : State) (w : InWord) (later : List (List InWord)), s.inbox = [w] :: later →
    fetch s = some (w, { s with inbox := later }))

/-- R139, R155: of the words pending at one instant the one of highest priority is taken, the earliest of
equals, and the others stay in order; the priorities are those of R139. -/
def Obligations.CoincidentEventsAreTakenByPriority : Prop :=
  (∀ (batch others : List InWord) (w : InWord), pickFirst batch = some (w, others) →
    ∃ a b, batch = a ++ w :: b ∧ others = a ++ b ∧ (∀ x ∈ a, priority w < priority x) ∧
      (∀ x ∈ b, priority w ≤ priority x)) ∧
  (∀ (s : State) (batch others : List InWord) (later : List (List InWord)) (w : InWord),
    s.inbox = batch :: later → pickFirst batch = some (w, others) →
    fetch s = some (w, { s with inbox := if others = [] then later else others :: later })) ∧
  (∀ (c : Cfg) (port : Bytes) (baud : Nat) (r : IoResult) (chunk : Bytes) (st : List ExchangeStep) (x : Byte) (p : Bytes),
    priority (encode (.reset c)) < priority (encode .connClose) ∧
    priority (encode .connClose) < priority (encode (.connOpen port baud r)) ∧
    priority (encode (.connOpen port baud r)) < priority (encode (.rx chunk)) ∧
    priority (encode (.rx chunk)) < priority (encode .tick) ∧
    priority (encode .tick) < priority (encode (.xchgStart st)) ∧
    priority (encode (.xchgStart st)) < priority (encode (.connSend x p)))

/-- R65: START_MOTOR on an open MOTOR instance sends set-speed with the speed big-endian and waits for its
response, with run and read-status to follow. The empty descriptions are the model's choice (assumption 19). -/
def Obligations.StartMotorExpands : Prop :=
  ∀ (speed : U16) (h1 h2 h3 t1 t2 t3 : Nat) (q1 q2 : Bytes) (s : State), s.cfg.ctx = .motor →
    s.connOpen = true → (∀ m, s.cfg.maxSteps = some m → 3 ≤ m) → 1 ≤ t1 → 1 ≤ t2 → 1 ≤ t3 →
    nextAnswer s = .ok →
    exec (startMotor speed h1 h2 h3 t1 t2 t3 q1 q2) s =
      .next { takeAnswer s with
        xc := ⟨true,
          [⟨⟨0x82, [hi8 speed, lo8 speed]⟩, h1, [], t1⟩, ⟨⟨0x81, q1⟩, h2, [], t2⟩, ⟨⟨0x21, q2⟩, h3, [], t3⟩],
          0, true, t1⟩
        out := s.out ++ [.tx (encodeFrame 0x82 [hi8 speed, lo8 speed]) .ok] }

/-- The inputs that are outside the spec's meaning and are refused: an RX past a finite `RB_CAP` (R86, D9); and
by the model's choice an internal operation, or a gear payload no decoded frame has, run alone outside its
precondition (assumption 8), and an event word that R62 does not list (assumption 4). -/
def Obligations.InputsOutsideTheSpecAreRefused : Prop :=
  (∀ (chunk : Bytes) (s : State) (cap : Nat), s.cfg.rbCap = some cap → cap < s.rb.length + chunk.length →
    s.connOpen = true → exec (.rx chunk) s = .refused .rbOverflow) ∧
  (∀ (f : Frame) (s : State), matchesStep f s = false → exec (.xchgResponse f) s = .refused .responseWithoutMatch) ∧
  (∀ s : State, s.xc.active = false ∨ s.xc.timerArmed = false →
    exec .xchgTimeout s = .refused .timeoutWithoutTimer) ∧
  (∀ (p : Bytes) (s : State), p.length < 2 → exec (.motorGear p) s = .refused .gearPayloadShort) ∧
  (∀ (s t : State) (code : Byte) (args : EventArgs) (e : DecodeError), fetch s = some (.event code args, t) →
    decodeEvent code args = .error e → step s = .refused (.undecodable e))
end

