-- ==== Sys2Proof/Laws/Bytes.lean ====
section
/-! SUPPORT. The small lemmas of the byte-level definitions: the checksum's accumulator, the length of an
encoded frame, the search primitive, and the progress of the reassembler's header scan. -/

namespace Sys2Proof

theorem sum8_fold (acc : Byte) (b : Bytes) : b.foldl (fun a x => a + x) acc = acc + sum8 b := by
  induction b generalizing acc with
  | nil => simp [sum8]
  | cons x xs ih =>
    have h := ih x
    simp only [sum8, List.foldl_cons] at h ⊢
    rw [ih (acc + x), show (0 : Byte) + x = x by simp, h, sum8, BitVec.add_assoc]

@[simp] theorem sum8_nil : sum8 [] = 0 := rfl

@[simp] theorem sum8_cons (x : Byte) (xs : Bytes) : sum8 (x :: xs) = x + sum8 xs := by
  have h := sum8_fold x xs
  simpa [sum8] using h

theorem encodeFrame_eq (c : Byte) (p : Bytes) :
    encodeFrame c p = 0x10 :: 0x02 :: c :: (p ++ [sum8 (frameSpan c p), 0x10, 0x03]) := by
  simp [encodeFrame, frameSpan, Config.header, Config.trailer]

@[simp] theorem encodeFrame_length (c : Byte) (p : Bytes) : (encodeFrame c p).length = p.length + 6 := by
  simp [encodeFrame_eq]

namespace Machine

@[simp] theorem scanHeader_nil : scanHeader [] = .absent := by
  simp [scanHeader]

theorem scanHeader_skip {b : Byte} (h : b ≠ Config.headerByte) (rest : Bytes) :
    scanHeader (b :: rest) = scanHeader rest := by
  simp [scanHeader, h]

theorem scanHeader_lone : scanHeader [Config.headerByte] = .lone := by
  simp [scanHeader]

theorem scanHeader_here (rest : Bytes) :
    scanHeader (Config.headerByte :: Config.headerSecond :: rest) =
      .found (Config.headerByte :: Config.headerSecond :: rest) := by
  simp [scanHeader]

theorem scanHeader_drop {c : Byte} (h : c ≠ Config.headerSecond) (rest : Bytes) :
    scanHeader (Config.headerByte :: c :: rest) = scanHeader (c :: rest) := by
  simp [scanHeader, h]

/-- What a found header is: a suffix of the buffer that begins 10 02. -/
theorem scanHeader_found {rb hb : Bytes} (h : scanHeader rb = .found hb) :
    hb <:+ rb ∧ ∃ x, hb = Config.headerByte :: Config.headerSecond :: x := by
  induction rb with
  | nil => simp at h
  | cons b rest ih =>
    by_cases hb1 : b = Config.headerByte
    · subst hb1
      cases rest with
      | nil => simp [scanHeader_lone] at h
      | cons c x =>
        by_cases hc : c = Config.headerSecond
        · subst hc
          rw [scanHeader_here] at h
          cases h
          exact ⟨List.suffix_refl _, x, rfl⟩
        · rw [scanHeader_drop hc] at h
          obtain ⟨h1, h2⟩ := ih h
          exact ⟨h1.trans (List.suffix_cons _ _), h2⟩
    · rw [scanHeader_skip hb1] at h
      obtain ⟨h1, h2⟩ := ih h
      exact ⟨h1.trans (List.suffix_cons _ _), h2⟩

/-- `find` answers the least index at or after `start` that holds the value. -/
theorem find_eq_some_iff {b : Bytes} {v : Byte} {start i : Nat} :
    find b v start = some i ↔ start ≤ i ∧ b[i]? = some v ∧ ∀ j, start ≤ j → j < i → b[j]? ≠ some v := by
  simp only [find, Option.map_eq_some_iff, List.findIdx?_eq_some_iff_getElem, List.length_drop,
    List.getElem_drop, beq_iff_eq]
  constructor
  · rintro ⟨k, ⟨hk, hv, hlt⟩, rfl⟩
    refine ⟨by omega, ?_, ?_⟩
    · rw [Nat.add_comm, List.getElem?_eq_getElem (by omega), hv]
    · intro j hj hji he
      obtain ⟨hjl, hje⟩ := List.getElem?_eq_some_iff.mp he
      have := hlt (j - start) (by omega)
      simp only [show start + (j - start) = j by omega] at this
      exact this hje
  · rintro ⟨hs, he, hlt⟩
    obtain ⟨hil, hie⟩ := List.getElem?_eq_some_iff.mp he
    refine ⟨i - start, ⟨by omega, by simp only [show start + (i - start) = i by omega]; exact hie, ?_⟩, by omega⟩
    intro j hj hje
    exact hlt (start + j) (by omega) (by omega) (by rw [List.getElem?_eq_getElem (by omega), hje])

theorem find_eq_none_iff {b : Bytes} {v : Byte} {start : Nat} :
    find b v start = none ↔ ∀ j, start ≤ j → b[j]? ≠ some v := by
  constructor
  · intro h j hj he
    obtain ⟨hjl, hje⟩ := List.getElem?_eq_some_iff.mp he
    simp only [find, Option.map_eq_none_iff, List.findIdx?_eq_none_iff] at h
    have hm : b[j] ∈ b.drop start := by
      rw [List.mem_drop_iff_getElem]
      exact ⟨j - start, by omega, by simp only [show start + (j - start) = j by omega]⟩
    simpa [hje] using h _ hm
  · intro h
    cases hf : find b v start with
    | none => rfl
    | some i => exact absurd (find_eq_some_iff.mp hf).2.1 (h i (find_eq_some_iff.mp hf).1)

/-- The passes do not depend on their fuel once it is above the buffer's length. -/
theorem passes_fuel {n m : Nat} {rb : Bytes} (hn : rb.length < n) (hm : rb.length < m) :
    passes n rb = passes m rb := by
  induction n generalizing m rb with
  | zero => omega
  | succ n ih =>
    cases m with
    | zero => omega
    | succ m =>
      by_cases h4 : rb.length < Config.minCandidateLen
      · simp [passes, h4]
      · cases hs : scanHeader rb with
        | absent => simp [passes, hs]
        | lone => simp [passes, hs]
        | found hb =>
          have hlen := (scanHeader_found hs).1.length_le
          cases he : find hb Config.trailerByte 1 with
          | none => simp [passes, hs, he]
          | some e =>
            have hd : (hb.drop (e + 1)).length < rb.length := by
              rw [List.length_drop]
              simp only [Config.minCandidateLen] at h4
              omega
            have hi : passes n (hb.drop (e + 1)) = passes m (hb.drop (e + 1)) := ih (by omega) (by omega)
            simp only [passes, hs, he, hi]

end Machine

end Sys2Proof
end

