-- ==== Sys2Proof/Laws/State.lean ====
section
/-! SUPPORT. One lemma per field per update: what each one-step update of the state leaves in each field. -/

namespace Sys2Proof.Machine

@[simp] theorem emit_cfg (e : OutEvent) (s : State) : (emit e s).cfg = s.cfg := rfl
@[simp] theorem emit_connOpen (e : OutEvent) (s : State) : (emit e s).connOpen = s.connOpen := rfl
@[simp] theorem emit_rb (e : OutEvent) (s : State) : (emit e s).rb = s.rb := rfl
@[simp] theorem emit_xc (e : OutEvent) (s : State) : (emit e s).xc = s.xc := rfl
@[simp] theorem emit_ds (e : OutEvent) (s : State) : (emit e s).ds = s.ds := rfl
@[simp] theorem emit_out (e : OutEvent) (s : State) : (emit e s).out = s.out ++ [e] := rfl
@[simp] theorem emit_ret (e : OutEvent) (s : State) : (emit e s).ret = s.ret := rfl
@[simp] theorem emit_inbox (e : OutEvent) (s : State) : (emit e s).inbox = s.inbox := rfl
@[simp] theorem emit_answers (e : OutEvent) (s : State) : (emit e s).answers = s.answers := rfl
@[simp] theorem emit_draws (e : OutEvent) (s : State) : (emit e s).draws = s.draws := rfl

@[simp] theorem raise_cfg (c : ErrorClass) (d : DiagInfo) (s : State) : (raise c d s).cfg = s.cfg := rfl
@[simp] theorem raise_connOpen (c : ErrorClass) (d : DiagInfo) (s : State) : (raise c d s).connOpen = s.connOpen := rfl
@[simp] theorem raise_rb (c : ErrorClass) (d : DiagInfo) (s : State) : (raise c d s).rb = s.rb := rfl
@[simp] theorem raise_xc (c : ErrorClass) (d : DiagInfo) (s : State) : (raise c d s).xc = s.xc := rfl
@[simp] theorem raise_ds (c : ErrorClass) (d : DiagInfo) (s : State) : (raise c d s).ds = s.ds := rfl
@[simp] theorem raise_out (c : ErrorClass) (d : DiagInfo) (s : State) : (raise c d s).out = s.out ++ [.diag c d] := rfl
@[simp] theorem raise_ret (c : ErrorClass) (d : DiagInfo) (s : State) : (raise c d s).ret = s.ret := rfl
@[simp] theorem raise_inbox (c : ErrorClass) (d : DiagInfo) (s : State) : (raise c d s).inbox = s.inbox := rfl
@[simp] theorem raise_answers (c : ErrorClass) (d : DiagInfo) (s : State) : (raise c d s).answers = s.answers := rfl
@[simp] theorem raise_draws (c : ErrorClass) (d : DiagInfo) (s : State) : (raise c d s).draws = s.draws := rfl

@[simp] theorem warn_cfg (o : TransportOp) (d : WarnDetail) (s : State) : (warn o d s).cfg = s.cfg := rfl
@[simp] theorem warn_connOpen (o : TransportOp) (d : WarnDetail) (s : State) : (warn o d s).connOpen = s.connOpen := rfl
@[simp] theorem warn_rb (o : TransportOp) (d : WarnDetail) (s : State) : (warn o d s).rb = s.rb := rfl
@[simp] theorem warn_xc (o : TransportOp) (d : WarnDetail) (s : State) : (warn o d s).xc = s.xc := rfl
@[simp] theorem warn_ds (o : TransportOp) (d : WarnDetail) (s : State) : (warn o d s).ds = s.ds := rfl
@[simp] theorem warn_out (o : TransportOp) (d : WarnDetail) (s : State) : (warn o d s).out = s.out ++ [.warn o d] := rfl
@[simp] theorem warn_ret (o : TransportOp) (d : WarnDetail) (s : State) : (warn o d s).ret = s.ret := rfl
@[simp] theorem warn_inbox (o : TransportOp) (d : WarnDetail) (s : State) : (warn o d s).inbox = s.inbox := rfl
@[simp] theorem warn_answers (o : TransportOp) (d : WarnDetail) (s : State) : (warn o d s).answers = s.answers := rfl
@[simp] theorem warn_draws (o : TransportOp) (d : WarnDetail) (s : State) : (warn o d s).draws = s.draws := rfl

@[simp] theorem takeAnswer_cfg (s : State) : (takeAnswer s).cfg = s.cfg := rfl
@[simp] theorem takeAnswer_connOpen (s : State) : (takeAnswer s).connOpen = s.connOpen := rfl
@[simp] theorem takeAnswer_rb (s : State) : (takeAnswer s).rb = s.rb := rfl
@[simp] theorem takeAnswer_xc (s : State) : (takeAnswer s).xc = s.xc := rfl
@[simp] theorem takeAnswer_ds (s : State) : (takeAnswer s).ds = s.ds := rfl
@[simp] theorem takeAnswer_out (s : State) : (takeAnswer s).out = s.out := rfl
@[simp] theorem takeAnswer_ret (s : State) : (takeAnswer s).ret = s.ret := rfl
@[simp] theorem takeAnswer_inbox (s : State) : (takeAnswer s).inbox = s.inbox := rfl
@[simp] theorem takeAnswer_answers (s : State) : (takeAnswer s).answers = s.answers.tail := rfl
@[simp] theorem takeAnswer_draws (s : State) : (takeAnswer s).draws = if s.answers.isEmpty then s.draws + 1 else s.draws := rfl

@[simp] theorem display_cfg (u : DisplayUpdate) (s : State) : (display u s).cfg = s.cfg := rfl
@[simp] theorem display_connOpen (u : DisplayUpdate) (s : State) : (display u s).connOpen = s.connOpen := rfl
@[simp] theorem display_rb (u : DisplayUpdate) (s : State) : (display u s).rb = s.rb := rfl
@[simp] theorem display_xc (u : DisplayUpdate) (s : State) : (display u s).xc = s.xc := rfl
@[simp] theorem display_ds (u : DisplayUpdate) (s : State) : (display u s).ds = s.ds.apply u := rfl
@[simp] theorem display_out (u : DisplayUpdate) (s : State) : (display u s).out = s.out ++ [.display u] := rfl
@[simp] theorem display_ret (u : DisplayUpdate) (s : State) : (display u s).ret = s.ret := rfl
@[simp] theorem display_inbox (u : DisplayUpdate) (s : State) : (display u s).inbox = s.inbox := rfl
@[simp] theorem display_answers (u : DisplayUpdate) (s : State) : (display u s).answers = s.answers := rfl
@[simp] theorem display_draws (u : DisplayUpdate) (s : State) : (display u s).draws = s.draws := rfl

@[simp] theorem returnValue_cfg (v : RetVal) (s : State) : (returnValue v s).cfg = s.cfg := rfl
@[simp] theorem returnValue_connOpen (v : RetVal) (s : State) : (returnValue v s).connOpen = s.connOpen := rfl
@[simp] theorem returnValue_rb (v : RetVal) (s : State) : (returnValue v s).rb = s.rb := rfl
@[simp] theorem returnValue_xc (v : RetVal) (s : State) : (returnValue v s).xc = s.xc := rfl
@[simp] theorem returnValue_ds (v : RetVal) (s : State) : (returnValue v s).ds = s.ds := rfl
@[simp] theorem returnValue_out (v : RetVal) (s : State) : (returnValue v s).out = s.out := rfl
@[simp] theorem returnValue_ret (v : RetVal) (s : State) : (returnValue v s).ret = some v := rfl
@[simp] theorem returnValue_inbox (v : RetVal) (s : State) : (returnValue v s).inbox = s.inbox := rfl
@[simp] theorem returnValue_answers (v : RetVal) (s : State) : (returnValue v s).answers = s.answers := rfl
@[simp] theorem returnValue_draws (v : RetVal) (s : State) : (returnValue v s).draws = s.draws := rfl

@[simp] theorem disarm_cfg (s : State) : (disarm s).cfg = s.cfg := rfl
@[simp] theorem disarm_connOpen (s : State) : (disarm s).connOpen = s.connOpen := rfl
@[simp] theorem disarm_rb (s : State) : (disarm s).rb = s.rb := rfl
@[simp] theorem disarm_xc (s : State) : (disarm s).xc = { s.xc with timerArmed := false, timerRem := 0 } := rfl
@[simp] theorem disarm_ds (s : State) : (disarm s).ds = s.ds := rfl
@[simp] theorem disarm_out (s : State) : (disarm s).out = s.out := rfl
@[simp] theorem disarm_ret (s : State) : (disarm s).ret = s.ret := rfl
@[simp] theorem disarm_inbox (s : State) : (disarm s).inbox = s.inbox := rfl
@[simp] theorem disarm_answers (s : State) : (disarm s).answers = s.answers := rfl
@[simp] theorem disarm_draws (s : State) : (disarm s).draws = s.draws := rfl

@[simp] theorem cancelExchange_cfg (s : State) : (cancelExchange s).cfg = s.cfg := rfl
@[simp] theorem cancelExchange_connOpen (s : State) : (cancelExchange s).connOpen = s.connOpen := rfl
@[simp] theorem cancelExchange_rb (s : State) : (cancelExchange s).rb = s.rb := rfl
@[simp] theorem cancelExchange_xc (s : State) : (cancelExchange s).xc = Xc.idle := rfl
@[simp] theorem cancelExchange_ds (s : State) : (cancelExchange s).ds = s.ds := rfl
@[simp] theorem cancelExchange_out (s : State) : (cancelExchange s).out = s.out := rfl
@[simp] theorem cancelExchange_ret (s : State) : (cancelExchange s).ret = s.ret := rfl
@[simp] theorem cancelExchange_inbox (s : State) : (cancelExchange s).inbox = s.inbox := rfl
@[simp] theorem cancelExchange_answers (s : State) : (cancelExchange s).answers = s.answers := rfl
@[simp] theorem cancelExchange_draws (s : State) : (cancelExchange s).draws = s.draws := rfl

end Sys2Proof.Machine
end

