-- ==== Sys2Proof/Laws/Ops.lean ====
section
/-! SUPPORT. One lemma per shared operation that says what it can do, and the frames that follow: a later
proof cites these and does not unfold the operation. -/

namespace Sys2Proof.Machine

theorem nextAnswer_scripted {r : IoResult} {l : List IoResult} {s : State} (h : s.answers = r :: l) :
    nextAnswer s = r := by
  simp [nextAnswer, h]

theorem write_open {s : State} (b : Bytes) (h : s.connOpen = true) :
    write b s = (nextAnswer s, emit (.tx b (nextAnswer s)) (takeAnswer s)) := by
  simp [write, h]

theorem write_closed {s : State} (b : Bytes) (h : s.connOpen = false) : write b s = (.fail, s) := by
  simp [write, h]

theorem andThen_next {r : Result} {k : State → Result} {t : State} (h : andThen r k = .next t) :
    ∃ u, r = .next u ∧ k u = .next t := by
  cases r with
  | next u => exact ⟨u, rfl, h⟩
  | fault e => cases h
  | refused e => cases h

/-- Everything `write` can do: on an open connection it takes one answer and records it with the bytes; on
a closed one it fails and does nothing. -/
theorem write_cases (b : Bytes) (s : State) :
    (s.connOpen = true ∧ write b s = (nextAnswer s, emit (.tx b (nextAnswer s)) (takeAnswer s))) ∨
      (s.connOpen = false ∧ write b s = (.fail, s)) := by
  cases h : s.connOpen
  · exact .inr ⟨rfl, write_closed b h⟩
  · exact .inl ⟨rfl, write_open b h⟩

/-- Everything SEND_STEP can do (R113, R125): the step is sent and its timer armed, or the exchange ends in
the idle state with a warning. -/
theorem sendStep_cases (st : ExchangeStep) (s : State) :
    (s.connOpen = true ∧ nextAnswer s = .ok ∧
      sendStep st s =
        { emit (.tx (encodeFrame st.request.command st.request.payload) .ok) (takeAnswer s) with
          xc := { s.xc with timerArmed := true, timerRem := st.timeout } }) ∨
    (s.connOpen = true ∧ nextAnswer s = .fail ∧
      sendStep st s =
        cancelExchange (warn .exchangeStep (.stepIndex s.xc.cursor)
          (emit (.tx (encodeFrame st.request.command st.request.payload) .fail) (takeAnswer s)))) ∨
    (s.connOpen = false ∧
      sendStep st s = cancelExchange (warn .exchangeStep (.stepIndex s.xc.cursor) s)) := by
  rcases write_cases (encodeFrame st.request.command st.request.payload) s with ⟨ho, hw⟩ | ⟨hc, hw⟩
  · cases hr : nextAnswer s
    · exact .inl ⟨ho, rfl, by simp [sendStep, hw, hr]⟩
    · exact .inr (.inl ⟨ho, rfl, by simp [sendStep, hw, hr]⟩)
  · exact .inr (.inr ⟨hc, by simp [sendStep, hw]⟩)

/-- Everything ADVANCE can do (R117). -/
theorem advance_cases (timedOut : Bool) (s : State) :
    (∃ st, s.xc.steps[s.xc.cursor + 1]? = some st ∧
      advance timedOut s = sendStep st { s with xc := { s.xc with cursor := s.xc.cursor + 1 } }) ∨
    (s.xc.steps[s.xc.cursor + 1]? = none ∧
      advance timedOut s =
        emit (.done timedOut) { s with xc := { s.xc with active := false, steps := [], cursor := 0 } }) := by
  cases h : s.xc.steps[s.xc.cursor + 1]? with
  | none => exact .inr ⟨rfl, by simp [advance, h]⟩
  | some st => exact .inl ⟨st, rfl, by simp [advance, h]⟩

/-- Everything ROUTE can do (R107): resolve the current step, or nothing. -/
theorem route_cases (f : Frame) (s : State) :
    (∃ st, currentStep s = some st ∧ f.command = st.request.command ∧ route f s = resolveStep st f s) ∨
      (matchesStep f s = false ∧ route f s = s) := by
  cases h : currentStep s with
  | none => exact .inr ⟨by simp [matchesStep, h], by simp [route, h]⟩
  | some st =>
    by_cases hc : f.command = st.request.command
    · exact .inl ⟨st, rfl, hc, by simp [route, h, hc]⟩
    · exact .inr ⟨by simp [matchesStep, h, hc], by simp [route, h, hc]⟩

/-- Everything the application of a status code to the light can do (R97, R103). -/
theorem showLight_cases (code : Byte) (s : State) :
    (∃ c, lightOf code = some c ∧ showLight code s = display (.light c) s) ∨
      (lightOf code = none ∧ showLight code s = raise .unknownStatus (.status code) s) := by
  cases h : lightOf code with
  | none => exact .inr ⟨rfl, by simp [showLight, h]⟩
  | some c => exact .inl ⟨c, rfl, by simp [showLight, h]⟩

/-- Everything DISP.ACK can do (R91). -/
theorem sendAck_cases (command : Byte) (payload : Bytes) (s : State) :
    (s.connOpen = true ∧ nextAnswer s = .ok ∧
      sendAck command payload s = (.ok, emit (.tx (encodeFrame command payload) .ok) (takeAnswer s))) ∨
    (s.connOpen = true ∧ nextAnswer s = .fail ∧
      sendAck command payload s =
        (.fail, warn .ack (.command command) (emit (.tx (encodeFrame command payload) .fail) (takeAnswer s)))) ∨
    (s.connOpen = false ∧ sendAck command payload s = (.fail, warn .ack (.command command) s)) := by
  rcases write_cases (encodeFrame command payload) s with ⟨ho, hw⟩ | ⟨hc, hw⟩
  · cases hr : nextAnswer s
    · exact .inl ⟨ho, rfl, by simp [sendAck, hw, hr]⟩
    · exact .inr (.inl ⟨ho, rfl, by simp [sendAck, hw, hr]⟩)
  · exact .inr (.inr ⟨hc, by simp [sendAck, hw]⟩)

/-- What an operation that acts on the exchange record and the output alone leaves unchanged. -/
structure ExchangeFrame (s t : State) : Prop where
  cfg : t.cfg = s.cfg
  connOpen : t.connOpen = s.connOpen
  rb : t.rb = s.rb
  ds : t.ds = s.ds
  ret : t.ret = s.ret
  inbox : t.inbox = s.inbox

theorem ExchangeFrame.refl (s : State) : ExchangeFrame s s := ⟨rfl, rfl, rfl, rfl, rfl, rfl⟩

theorem ExchangeFrame.trans {s t u : State} (h : ExchangeFrame s t) (k : ExchangeFrame t u) : ExchangeFrame s u :=
  ⟨k.cfg.trans h.cfg, k.connOpen.trans h.connOpen, k.rb.trans h.rb, k.ds.trans h.ds, k.ret.trans h.ret,
    k.inbox.trans h.inbox⟩

theorem sendStep_frame (st : ExchangeStep) (s : State) : ExchangeFrame s (sendStep st s) := by
  rcases sendStep_cases st s with ⟨_, _, h⟩ | ⟨_, _, h⟩ | ⟨_, h⟩ <;> rw [h] <;> constructor <;> rfl

theorem advance_frame (timedOut : Bool) (s : State) : ExchangeFrame s (advance timedOut s) := by
  rcases advance_cases timedOut s with ⟨st, _, h⟩ | ⟨_, h⟩
  · rw [h]
    have k := sendStep_frame st { s with xc := { s.xc with cursor := s.xc.cursor + 1 } }
    exact ⟨k.cfg, k.connOpen, k.rb, k.ds, k.ret, k.inbox⟩
  · rw [h]
    constructor <;> rfl

theorem resolveStep_frame (st : ExchangeStep) (f : Frame) (s : State) :
    ExchangeFrame s (resolveStep st f s) := by
  have k := advance_frame false (disarm (emit (.handler s.xc.cursor st.handler f) s))
  exact ⟨k.cfg, k.connOpen, k.rb, k.ds, k.ret, k.inbox⟩

theorem timeOutStep_frame (s : State) : ExchangeFrame s (timeOutStep s) := by
  have k := advance_frame true (disarm (raise .exchangeTimeout (.stepIndex s.xc.cursor) s))
  exact ⟨k.cfg, k.connOpen, k.rb, k.ds, k.ret, k.inbox⟩

theorem route_frame (f : Frame) (s : State) : ExchangeFrame s (route f s) := by
  rcases route_cases f s with ⟨st, _, _, h⟩ | ⟨_, h⟩
  · rw [h]
    exact resolveStep_frame st f s
  · rw [h]
    exact ExchangeFrame.refl s

theorem sendAck_frame (command : Byte) (payload : Bytes) (s : State) :
    ExchangeFrame s (sendAck command payload s).2 ∧ (sendAck command payload s).2.xc = s.xc := by
  rcases sendAck_cases command payload s with ⟨_, _, h⟩ | ⟨_, _, h⟩ | ⟨_, h⟩ <;> rw [h] <;>
    exact ⟨⟨rfl, rfl, rfl, rfl, rfl, rfl⟩, rfl⟩

/-- The current step and its match depend on the exchange record alone. -/
theorem currentStep_congr {s t : State} (h : t.xc = s.xc) : currentStep t = currentStep s := by
  simp [currentStep, h]

theorem matchesStep_congr {s t : State} (f : Frame) (h : t.xc = s.xc) : matchesStep f t = matchesStep f s := by
  simp [matchesStep, currentStep_congr h]

theorem matchesStep_iff {f : Frame} {s : State} :
    matchesStep f s = true ↔ ∃ st, currentStep s = some st ∧ f.command = st.request.command := by
  cases h : currentStep s <;> simp [matchesStep, h]

/-- What PROCESS keeps for every candidate, the processing of a chunk's candidates keeps. -/
theorem processAll_induction {P : State → Prop} (hstep : ∀ raw s t, process raw s = .next t → P s → P t) :
    ∀ {cands s t}, processAll cands s = .next t → P s → P t := by
  intro cands
  induction cands with
  | nil =>
    intro s t h hp
    cases h
    exact hp
  | cons c cs ih =>
    intro s t h hp
    obtain ⟨u, h1, h2⟩ := andThen_next h
    exact ih h2 (hstep c s u h1 hp)

/-- What every event of a list keeps, the run of the list keeps. -/
theorem runEvents_induction {P : State → Prop} :
    ∀ {events s t}, (∀ i ∈ events, ∀ u v, exec i u = .next v → P u → P v) → runEvents events s = .next t →
      P s → P t := by
  intro events
  induction events with
  | nil =>
    intro s t _ h hp
    cases h
    exact hp
  | cons i rest ih =>
    intro s t hstep h hp
    obtain ⟨u, h1, h2⟩ := andThen_next h
    exact ih (fun j hj => hstep j (List.mem_cons_of_mem _ hj)) h2 (hstep i List.mem_cons_self s u h1 hp)

end Sys2Proof.Machine
end

