-- ==== Sys2Proof/Laws/PerInstr.lean ====
section
/-! SUPPORT. The per-instruction family `TableWord`: the encoder gives an instruction the bits that
spec/opcode_table.json gives its row (R60, R62). -/

namespace Sys2Proof.Laws.TableWord

/-- The encoded word's table bits are the row's width and `match`. -/
def Statement (i : Instr) : Prop := (encode i).tableBits = i.tableRow

theorem frame_bits (c : Byte) (p : Bytes) :
    (InWord.frame (encodeFrame c p)).tableBits = (24, 0x100200 + c.toNat) := by
  simp [InWord.tableBits, encodeFrame_eq]

theorem ctrlStop (payload : Bytes) : Statement (.ctrlStop payload) := frame_bits 0x80 payload

theorem ctrlRun (payload : Bytes) : Statement (.ctrlRun payload) := frame_bits 0x81 payload

theorem ctrlSetSpeed (payload : Bytes) : Statement (.ctrlSetSpeed payload) := frame_bits 0x82 payload

theorem ctrlGear (payload : Bytes) : Statement (.ctrlGear payload) := frame_bits 0x83 payload

theorem ctrlVersion (payload : Bytes) : Statement (.ctrlVersion payload) := frame_bits 0x20 payload

theorem ctrlTelemetry (payload : Bytes) : Statement (.ctrlTelemetry payload) := frame_bits 0x21 payload

theorem motorStop (payload : Bytes) : Statement (.motorStop payload) := frame_bits 0x80 payload

theorem motorRun (payload : Bytes) : Statement (.motorRun payload) := frame_bits 0x81 payload

theorem motorSetSpeed (payload : Bytes) : Statement (.motorSetSpeed payload) := frame_bits 0x82 payload

theorem motorGear (payload : Bytes) : Statement (.motorGear payload) := frame_bits 0x83 payload

theorem motorVersion (payload : Bytes) : Statement (.motorVersion payload) := frame_bits 0x20 payload

theorem motorTelemetry (payload : Bytes) : Statement (.motorTelemetry payload) := frame_bits 0x21 payload

theorem reset (cfg : Cfg) : Statement (.reset cfg) := rfl

theorem connOpen (portName : Bytes) (baudRate : Nat) (result : IoResult) : Statement (.connOpen portName baudRate result) := rfl

theorem connClose : Statement .connClose := rfl

theorem rx (chunk : Bytes) : Statement (.rx chunk) := rfl

theorem connSend (command : Byte) (payload : Bytes) : Statement (.connSend command payload) := rfl

theorem xchgStart (steps : List ExchangeStep) : Statement (.xchgStart steps) := rfl

theorem tick : Statement .tick := rfl

theorem cksumCompute (b : Bytes) : Statement (.cksumCompute b) := rfl

theorem codecEncode (command : Byte) (payload : Bytes) : Statement (.codecEncode command payload) := rfl

theorem codecDecode (raw : Bytes) : Statement (.codecDecode raw) := rfl

theorem rsmFeed (chunk : Bytes) : Statement (.rsmFeed chunk) := rfl

theorem dispDispatch (frame : Frame) : Statement (.dispDispatch frame) := rfl

theorem xchgResponse (frame : Frame) : Statement (.xchgResponse frame) := rfl

theorem xchgTimeout : Statement .xchgTimeout := rfl

theorem xchgCancel : Statement .xchgCancel := rfl

end Sys2Proof.Laws.TableWord
end

