-- ==== Sys2Proof/Tests/Slice0.lean ====
section
/-! SUPPORT. The model's own tests: the well-formedness checks, decoding of words written out from the
spec, one-step tests whose results are the vectors of 95_test_vectors.md and 96_test_vectors_events.md
(their row ids stand in the comments), and a witness for the hypotheses of every statement. -/

namespace Sys2Proof.Tests

open Sys2Proof Sys2Proof.Machine

/-- The test configuration `TVCFG` of 95_test_vectors.md section 0. -/
def tv : Cfg :=
  { Config.cfgAtReset with
    ackStop := [0x00, 0x00], ackRun := [0x00, 0x01], ackSetSpeed := [0x00, 0x02], ackGear := [0x05, 0x07]
    ackVersion := [0x56, 0x31, 0x2E, 0x30], synStatus := 0x0B, synSpeed := 100, synVoltage := 220
    synTemp := 0x19, synPower := 50 }

/-- `TVCFG` with CTX = MOTOR. -/
def tvMotor : Cfg := { tv with ctx := .motor }

/-- An open connection, nothing buffered, no exchange. -/
def opened (c : Cfg) (answers : List IoResult) : State :=
  { State.reset with cfg := c, connOpen := true, answers := answers }

def setSpeedStep : ExchangeStep := ⟨⟨0x82, [0x02, 0x58]⟩, 1, [], 100⟩
def runStep : ExchangeStep := ⟨⟨0x81, [0x00, 0x00]⟩, 2, [], 1000⟩

/-- WAIT(i) of a two-step exchange on an open MOTOR instance. -/
def waiting (i rem : Nat) (answers : List IoResult) : State :=
  { opened tvMotor answers with xc := ⟨true, [setSpeedStep, runStep], i, true, rem⟩ }

/-- Its state, when a step went on. -/
def nextOf : Result → Option State
  | .next t => some t
  | .fault _ => none
  | .refused _ => none

/-- Its output, when a step went on. -/
def outOf (r : Result) : Option (List OutEvent) := (nextOf r).map State.out

/-- Its reason, when a step was refused. -/
def refusalOf : Result → Option Refusal
  | .next _ => none
  | .fault _ => none
  | .refused e => some e

/-- The set-speed frame of S1 and the telemetry frame of S2. -/
def frameS1 : Bytes := [0x10, 0x02, 0x82, 0x02, 0x58, 0xEE, 0x10, 0x03]
def frameS2 : Bytes := [0x10, 0x02, 0x21, 0x0B, 0x00, 0x64, 0x00, 0xDC, 0x19, 0x00, 0x32, 0xC9, 0x10, 0x03]
def payloadS2 : Bytes := [0x0B, 0x00, 0x64, 0x00, 0xDC, 0x19, 0x00, 0x32]

/-! ### Well-formedness: each check refuses an ill-formed term -/

theorem test_wf_short_frame_payload :
    (Instr.ctrlStop [0x00]).wellFormed = false ∧ (Instr.ctrlRun []).wellFormed = false ∧
    (Instr.ctrlSetSpeed [0x02]).wellFormed = false ∧ (Instr.ctrlGear [0x05]).wellFormed = false ∧
    (Instr.ctrlVersion []).wellFormed = false ∧ (Instr.ctrlTelemetry [0x00]).wellFormed = false ∧
    (Instr.motorStop [0x00]).wellFormed = false ∧ (Instr.motorRun []).wellFormed = false ∧
    (Instr.motorSetSpeed [0x02]).wellFormed = false ∧ (Instr.motorGear [0x05]).wellFormed = false ∧
    (Instr.motorVersion []).wellFormed = false ∧ (Instr.motorTelemetry [0x00]).wellFormed = false ∧
    (Instr.dispDispatch ⟨0x80, [0x00]⟩).wellFormed = false ∧
    (Instr.xchgResponse ⟨0x80, []⟩).wellFormed = false := by decide

theorem test_wf_step_table :
    (Instr.xchgStart []).wellFormed = false ∧
    (Instr.xchgStart [setSpeedStep, ⟨⟨0x81, [0x00, 0x00]⟩, 2, [], 0⟩]).wellFormed = false ∧
    (Instr.xchgStart [setSpeedStep, runStep]).wellFormed = true := by decide

theorem test_wf_configuration :
    (Instr.reset { tv with ackStop := [0x00] }).wellFormed = false ∧
    (Instr.reset { tv with ackRun := [] }).wellFormed = false ∧
    (Instr.reset { tv with ackSetSpeed := [0x00] }).wellFormed = false ∧
    (Instr.reset { tv with ackGear := [0x05] }).wellFormed = false ∧
    (Instr.reset { tv with ackVersion := [0x56] }).wellFormed = false ∧
    (Instr.reset { tv with scaleSpeed := ⟨0, 1⟩ }).wellFormed = false ∧
    (Instr.reset { tv with scaleVoltage := ⟨1, 0⟩ }).wellFormed = false ∧
    (Instr.reset { tv with scaleTemp := ⟨0, 0⟩ }).wellFormed = false ∧
    (Instr.reset { tv with scalePower := ⟨0, 10⟩ }).wellFormed = false ∧
    (Instr.reset tv).wellFormed = true := by decide

/-! ### Decoding: every constructor by a word written out from R47, R49, R60 and R62 -/

/-- CT1, CT2, CT3, CT5, CT6, CT7. -/
theorem test_decode_control :
    decode .control (.frame [0x10, 0x02, 0x80, 0x00, 0x00, 0x92, 0x10, 0x03]) = .ok (.ctrlStop [0x00, 0x00]) ∧
    decode .control (.frame [0x10, 0x02, 0x81, 0x00, 0x00, 0x93, 0x10, 0x03]) = .ok (.ctrlRun [0x00, 0x00]) ∧
    decode .control (.frame [0x10, 0x02, 0x82, 0x02, 0x58, 0xEE, 0x10, 0x03]) = .ok (.ctrlSetSpeed [0x02, 0x58]) ∧
    decode .control (.frame [0x10, 0x02, 0x83, 0x00, 0x00, 0x95, 0x10, 0x03]) = .ok (.ctrlGear [0x00, 0x00]) ∧
    decode .control (.frame [0x10, 0x02, 0x20, 0x00, 0x00, 0x32, 0x10, 0x03]) = .ok (.ctrlVersion [0x00, 0x00]) ∧
    decode .control (.frame [0x10, 0x02, 0x21, 0x00, 0x00, 0x33, 0x10, 0x03]) = .ok (.ctrlTelemetry [0x00, 0x00]) := by
  decide

/-- MT1 to MT4, MT6, MT8. -/
theorem test_decode_motor :
    decode .motor (.frame [0x10, 0x02, 0x80, 0x00, 0x00, 0x92, 0x10, 0x03]) = .ok (.motorStop [0x00, 0x00]) ∧
    decode .motor (.frame [0x10, 0x02, 0x81, 0x00, 0x01, 0x94, 0x10, 0x03]) = .ok (.motorRun [0x00, 0x01]) ∧
    decode .motor (.frame [0x10, 0x02, 0x82, 0x00, 0x02, 0x96, 0x10, 0x03]) = .ok (.motorSetSpeed [0x00, 0x02]) ∧
    decode .motor (.frame [0x10, 0x02, 0x83, 0x05, 0x07, 0xA1, 0x10, 0x03]) = .ok (.motorGear [0x05, 0x07]) ∧
    decode .motor (.frame [0x10, 0x02, 0x20, 0x56, 0x31, 0x2E, 0x30, 0x17, 0x10, 0x03]) =
      .ok (.motorVersion [0x56, 0x31, 0x2E, 0x30]) ∧
    decode .motor (.frame frameS2) = .ok (.motorTelemetry payloadS2) := by decide

theorem test_decode_input_events :
    decode .motor (.event 0x00 (.cfg tv)) = .ok (.reset tv) ∧
    decode .motor (.event 0x01 (.port [0x43] 9600 .fail)) = .ok (.connOpen [0x43] 9600 .fail) ∧
    decode .motor (.event 0x02 .none) = .ok .connClose ∧
    decode .motor (.event 0x03 (.bytes [0x10])) = .ok (.rx [0x10]) ∧
    decode .motor (.event 0x04 (.command 0x82 [0x02, 0x58])) = .ok (.connSend 0x82 [0x02, 0x58]) ∧
    decode .motor (.event 0x05 (.steps [runStep])) = .ok (.xchgStart [runStep]) ∧
    decode .motor (.event 0x06 .none) = .ok .tick := by decide

theorem test_decode_internal_operations :
    decode .motor (.event 0x10 (.bytes [0x10])) = .ok (.cksumCompute [0x10]) ∧
    decode .motor (.event 0x11 (.command 0x99 [])) = .ok (.codecEncode 0x99 []) ∧
    decode .motor (.event 0x12 (.bytes [0x10])) = .ok (.codecDecode [0x10]) ∧
    decode .motor (.event 0x13 (.bytes [0x10])) = .ok (.rsmFeed [0x10]) ∧
    decode .motor (.event 0x14 (.frame ⟨0x80, [0x00, 0x00]⟩)) = .ok (.dispDispatch ⟨0x80, [0x00, 0x00]⟩) ∧
    decode .motor (.event 0x15 (.frame ⟨0x80, [0x00, 0x00]⟩)) = .ok (.xchgResponse ⟨0x80, [0x00, 0x00]⟩) ∧
    decode .motor (.event 0x16 .none) = .ok .xchgTimeout ∧
    decode .motor (.event 0x17 .none) = .ok .xchgCancel := by decide

/-- Codes that R62 does not list, arguments of the wrong kind, DE2, MT15. -/
theorem test_decode_rejects :
    decode .control (.event 0x07 .none) = .error (.unknownEvent 0x07) ∧
    decode .control (.event 0x18 .none) = .error (.unknownEvent 0x18) ∧
    decode .control (.event 0x06 (.bytes [])) = .error (.wrongArguments 0x06) ∧
    decode .control (.frame [0x10, 0x02, 0x82, 0x02, 0x58, 0xD4, 0x10, 0x03]) = .error (.frame .badChecksum) ∧
    decode .motor (.frame [0x10, 0x02, 0x99, 0x00, 0x00, 0xAB, 0x10, 0x03]) = .error (.unknownCommand 0x99) := by
  decide

/-- The table's words: the 24-bit match of R60, the event codes of R62, a width the table has not. -/
theorem test_decode_table_words :
    decodeTableWord 24 0x100283 = some (.ctrlGear zeroPayload) ∧ decodeTableWord 8 0x17 = some .xchgCancel ∧
    decodeTableWord 24 0x100299 = none ∧ decodeTableWord 8 0x08 = none ∧ decodeTableWord 16 0x06 = none := by
  decide

/-! ### Checksum and codec -/

/-- CK1, CK4, CK5, CK11, CK13. -/
theorem test_cksum :
    sum8 [] = 0x00 ∧ sum8 [0xFF, 0x01] = 0x00 ∧ sum8 [0x80, 0x80] = 0x00 ∧
    sum8 [0x10, 0x02, 0x82, 0x02, 0x58] = 0xEE ∧
    sum8 [0x10, 0x02, 0x21, 0x0B, 0x00, 0x64, 0x00, 0xDC, 0x19, 0x00, 0x32] = 0xC9 := by decide

theorem test_cksumCompute :
    (nextOf (exec (.cksumCompute [0xFF, 0xFF]) State.reset)).map State.ret = some (some (.byte 0xFE)) := by decide

/-- EN9, EN13, EN17, EN19. -/
theorem test_encode :
    encodeFrame 0x20 [0x56, 0x31, 0x2E, 0x30] = [0x10, 0x02, 0x20, 0x56, 0x31, 0x2E, 0x30, 0x17, 0x10, 0x03] ∧
    encodeFrame 0x82 [] = [0x10, 0x02, 0x82, 0x94, 0x10, 0x03] ∧
    encodeFrame 0x82 [0x10, 0x03] = [0x10, 0x02, 0x82, 0x10, 0x03, 0xA7, 0x10, 0x03] ∧
    encodeFrame 0xFF [0xFF, 0xFF] = [0x10, 0x02, 0xFF, 0xFF, 0xFF, 0x0F, 0x10, 0x03] := by decide

/-- S1, and the same frame with a third payload byte 00, one more than a `MAX_FRAME_LEN` of 8 leaves room for. -/
theorem test_codecEncode :
    (nextOf (exec (.codecEncode 0x82 [0x02, 0x58]) State.reset)).map State.ret = some (some (.bytes frameS1)) ∧
    (nextOf (exec (.codecEncode 0x82 [0x02, 0x58, 0x00])
      { State.reset with cfg := { tv with maxFrameLen := some 8 } })).map State.ret =
      some (some (.bytes [0x10, 0x02, 0x82, 0x02, 0x58, 0x00, 0xEE, 0x10, 0x03])) := by decide

/-- DE7, DE8, DE10, DE12, DE14, DE15. -/
theorem test_decodeFrame :
    decodeFrame [0x10, 0x03] = .error .tooShort ∧
    decodeFrame [0x10, 0x02, 0x82, 0x02, 0x96, 0x10, 0x03] = .error .tooShort ∧
    decodeFrame [0x11, 0x02, 0x82, 0x02, 0x58, 0xEE, 0x10, 0x04] = .error .badHeader ∧
    decodeFrame [0x10, 0x02, 0x82, 0x02, 0x58, 0x00, 0x10, 0x04] = .error .badTrailer ∧
    decodeFrame [0x10, 0x02, 0x82, 0x02, 0x58, 0xEE, 0x10, 0x03, 0x00] = .error .badTrailer ∧
    decodeFrame [0x10, 0x02, 0x80, 0x70, 0x01, 0x03, 0x10, 0x03] = .ok ⟨0x80, [0x70, 0x01]⟩ := by decide

theorem test_codecDecode :
    (nextOf (exec (.codecDecode frameS1) State.reset)).map State.ret =
      some (some (.frame ⟨0x82, [0x02, 0x58]⟩)) ∧
    (nextOf (exec (.codecDecode [0x10, 0x02, 0x82, 0x02, 0x59, 0xEE, 0x10, 0x03]) State.reset)).map State.ret =
      some (some (.frameError .badChecksum)) := by decide

/-! ### Reassembler: RS3, RS8, RS14, RS16, RS18, RS22, RS24 and row 3 of P4 -/

theorem test_feed_garbage :
    feed [0x10, 0x02, 0x03] [0xFF] = ([], [0xFF]) ∧ feed [] [0x10, 0x10, 0x02, 0x03] = ([], []) ∧
    feed [] [0xFF, 0xFF, 0xFF, 0x10] = ([], [0x10]) ∧ feed [] [0x10, 0x02, 0xAA, 0x03] = ([[0x10, 0x02, 0xAA, 0x03]], []) := by
  decide

theorem test_feed_frames :
    feed [] (frameS1 ++ [0x10, 0x02, 0x83, 0x05, 0x07, 0xA1, 0x10, 0x03]) =
      ([frameS1, [0x10, 0x02, 0x83, 0x05, 0x07, 0xA1, 0x10, 0x03]], []) ∧
    feed [] [0x10, 0x02, 0x80, 0x70, 0x01, 0x03, 0x10, 0x03] = ([[0x10, 0x02, 0x80, 0x70, 0x01, 0x03]], [0x10, 0x03]) ∧
    feed [] ([0xFF, 0x10, 0x02, 0xFF] ++ frameS1) = ([[0x10, 0x02, 0xFF] ++ frameS1], []) := by decide

theorem test_rsmFeed :
    (nextOf (exec (.rsmFeed [0x02, 0x82, 0x02, 0x58, 0xEE, 0x10, 0x03]) { State.reset with rb := [0x10] })).map
        (fun t => (t.rb, t.ret)) = some ([], some (.candidates [frameS1])) ∧
    (nextOf (exec (.rsmFeed [0x10, 0x02, 0xAA, 0x03, 0x10, 0x02, 0x03, 0x10, 0x02, 0x82, 0x00, 0x03, 0x97, 0x10, 0x03])
        State.reset)).map (fun t => (t.rb, t.ret)) =
      some ([0x97, 0x10, 0x03], some (.candidates [[0x10, 0x02, 0xAA, 0x03], [0x10, 0x02, 0x82, 0x00, 0x03]])) := by
  decide

/-! ### CONTROL rows: CT1 to CT7, CT11, CT12, CS5 -/

theorem test_ctrlStop :
    outOf (exec (.ctrlStop [0x00, 0x00]) (opened tv [.ok])) =
      some [.tx [0x10, 0x02, 0x80, 0x00, 0x00, 0x92, 0x10, 0x03] .ok] ∧
    outOf (exec (.ctrlStop [0x00, 0x00]) (opened tv [.fail])) =
      some [.tx [0x10, 0x02, 0x80, 0x00, 0x00, 0x92, 0x10, 0x03] .fail, .warn .ack (.command 0x80)] := by decide

theorem test_ctrlRun :
    outOf (exec (.ctrlRun [0x00, 0x00]) (opened tv [.ok])) =
      some [.tx [0x10, 0x02, 0x81, 0x00, 0x01, 0x94, 0x10, 0x03] .ok] := by decide

theorem test_ctrlSetSpeed :
    outOf (exec (.ctrlSetSpeed [0x02, 0x58]) (opened tv [.ok])) =
      some [.tx [0x10, 0x02, 0x82, 0x00, 0x02, 0x96, 0x10, 0x03] .ok] := by decide

theorem test_ctrlGear :
    outOf (exec (.ctrlGear [0x00, 0x00]) (opened tv [.ok])) =
      some [.tx [0x10, 0x02, 0x83, 0x05, 0x07, 0xA1, 0x10, 0x03] .ok] := by decide

theorem test_ctrlVersion :
    outOf (exec (.ctrlVersion [0x00, 0x00]) (opened tv [.ok])) =
      some [.tx [0x10, 0x02, 0x20, 0x56, 0x31, 0x2E, 0x30, 0x17, 0x10, 0x03] .ok] := by decide

theorem test_ctrlTelemetry :
    (nextOf (exec (.ctrlTelemetry [0x00, 0x00]) (opened tv [.ok]))).map (fun t => (t.out, t.ds.light)) =
      some ([.tx frameS2 .ok, .display (.light .green)], .lit .green) ∧
    (nextOf (exec (.ctrlTelemetry [0x00, 0x00]) (opened tv [.fail]))).map (fun t => (t.out, t.ds.light)) =
      some ([.tx frameS2 .fail, .warn .ack (.command 0x21)], .none) := by decide

theorem test_ctrlTelemetry_unknown_status :
    outOf (exec (.ctrlTelemetry [0x00, 0x00]) (opened { tv with synStatus := 0x7F } [.ok])) =
      some [.tx [0x10, 0x02, 0x21, 0x7F, 0x00, 0x64, 0x00, 0xDC, 0x19, 0x00, 0x32, 0x3D, 0x10, 0x03] .ok,
        .diag .unknownStatus (.status 0x7F)] := by decide

/-! ### MOTOR rows: MT1 to MT14, X1 row 3 -/

theorem test_motorStop : nextOf (exec (.motorStop [0x00, 0x00]) (opened tvMotor [])) = some (opened tvMotor []) := by
  decide

theorem test_motorRun :
    outOf (exec (.motorRun [0x00, 0x01]) (waiting 1 7 [])) =
      some [.handler 1 2 ⟨0x81, [0x00, 0x01]⟩, .done false] := by decide

/-- X6, the first of the two responses. -/
theorem test_motorSetSpeed :
    outOf (exec (.motorSetSpeed [0x00, 0x02]) (waiting 0 60 [.ok])) =
      some [.handler 0 1 ⟨0x82, [0x00, 0x02]⟩, .tx [0x10, 0x02, 0x81, 0x00, 0x00, 0x93, 0x10, 0x03] .ok] := by decide

theorem test_motorGear :
    (nextOf (exec (.motorGear [0xFF, 0x00, 0xAA, 0xBB]) (opened tvMotor []))).map
        (fun t => (t.ds.speedGear, t.ds.timeGear, t.out)) =
      some (some 0xFF, some 0x00, [.display (.gear 0xFF 0x00)]) ∧
    refusalOf (exec (.motorGear [0x05]) (opened tvMotor [])) = some .gearPayloadShort := by decide

theorem test_motorVersion :
    (nextOf (exec (.motorVersion [0x80, 0xFF]) (opened tvMotor []))).map (fun t => (t.ds.version, t.out)) =
      some (some [0x80, 0xFF], [.display (.version [0x80, 0xFF])]) := by decide

theorem test_motorTelemetry :
    (nextOf (exec (.motorTelemetry payloadS2) (opened tvMotor []))).map (fun t => (t.ds, t.out)) =
      some (⟨some 0x0B, some 100, some 220, some 0x19, some 50, none, none, none, .lit .green⟩,
        [.display (.status 0x0B), .display (.speed 100), .display (.voltage 220), .display (.temperature 0x19),
          .display (.power 50), .display (.light .green)]) ∧
    (nextOf (exec (.motorTelemetry [0x7F, 0x01, 0x2C, 0x00, 0x18, 0xFF, 0x00, 0x0A]) (opened tvMotor []))).map
        (fun t => (t.ds.speed, t.ds.light, t.out.getLast?)) =
      some (some 300, .none, some (.diag .unknownStatus (.status 0x7F))) := by decide

theorem test_motorTelemetry_short :
    outOf (exec (.motorTelemetry [0x0B, 0x00]) (opened tvMotor [])) =
      some [.diag .shortPayload (.payloadLength 0x21 2)] ∧
    outOf (exec (.motorTelemetry [0x0B, 0x00, 0x64, 0x00, 0xDC, 0x19, 0x00]) (opened tvMotor [])) =
      some [.diag .shortPayload (.payloadLength 0x21 7)] := by decide

/-- V-LIGHT: the boundary codes. -/
theorem test_light :
    lightOf 0x1F = none ∧ lightOf 0x20 = some .blue ∧ lightOf 0x2B = some .blue ∧ lightOf 0x2C = none ∧
    lightOf 0x0A = none ∧ lightOf 0x0B = some .green ∧ lightOf 0x00 = some .red ∧ lightOf 0x4F = none ∧
    lightOf 0x50 = some .blue ∧ lightOf 0x51 = none := by decide

/-! ### Dispatcher and receive pipeline: CT9, CT10, CN2 rows 3 to 5, row 5 of P1, X6, X12 -/

theorem test_dispDispatch :
    outOf (exec (.dispDispatch ⟨0x99, [0x00, 0x00]⟩) (opened tv [])) = some [.diag .unknownCommand (.command 0x99)] ∧
    outOf (exec (.dispDispatch ⟨0x83, [0x05, 0x07]⟩) (opened tvMotor [])) = some [.display (.gear 0x05 0x07)] := by
  decide

theorem test_rx_control :
    (nextOf (exec (.rx [0x02, 0x58, 0xEE, 0x10, 0x03]) { opened tv [.ok] with rb := [0x10, 0x02, 0x82] })).map
        (fun t => (t.rb, t.out)) =
      some ([], [.frame ⟨0x82, [0x02, 0x58]⟩, .tx [0x10, 0x02, 0x82, 0x00, 0x02, 0x96, 0x10, 0x03] .ok]) ∧
    outOf (exec (.rx [0x10, 0x02, 0x82, 0x02, 0x58, 0xD4, 0x10, 0x03]) (opened tv [])) =
      some [.diag .badChecksum (.candidate [0x10, 0x02, 0x82, 0x02, 0x58, 0xD4, 0x10, 0x03])] := by decide

/-- X6: two responses in one chunk resolve two steps. -/
theorem test_rx_motor :
    outOf (exec (.rx [0x10, 0x02, 0x82, 0x00, 0x02, 0x96, 0x10, 0x03, 0x10, 0x02, 0x81, 0x00, 0x01, 0x94, 0x10, 0x03])
        (waiting 0 100 [.ok])) =
      some [.frame ⟨0x82, [0x00, 0x02]⟩, .handler 0 1 ⟨0x82, [0x00, 0x02]⟩,
        .tx [0x10, 0x02, 0x81, 0x00, 0x00, 0x93, 0x10, 0x03] .ok, .frame ⟨0x81, [0x00, 0x01]⟩,
        .handler 1 2 ⟨0x81, [0x00, 0x01]⟩, .done false] := by decide

/-! ### Exchange: R112's example, X2, X8, X9, X10 -/

theorem test_xchgStart :
    (nextOf (exec (.xchgStart [setSpeedStep]) (opened tvMotor [.ok]))).map (fun t => (t.xc, t.out)) =
      some (⟨true, [setSpeedStep], 0, true, 100⟩, [.tx frameS1 .ok]) ∧
    (nextOf (exec (.xchgStart [setSpeedStep, runStep]) (opened tvMotor [.fail]))).map (fun t => (t.xc, t.out)) =
      some (Xc.idle, [.tx frameS1 .fail, .warn .exchangeStep (.stepIndex 0)]) := by decide

theorem test_xchgStart_stops :
    outOf (exec (.xchgStart [setSpeedStep]) { State.reset with cfg := tvMotor }) = some [.warn .start .portClosed] ∧
    refusalOf (exec (.xchgStart [setSpeedStep]) (opened tv [])) = some .xchgInControl ∧
    refusalOf (exec (.xchgStart []) (opened tvMotor [])) = some .xchgNoSteps ∧
    refusalOf (exec (.xchgStart [setSpeedStep, runStep]) (opened { tvMotor with maxSteps := some 1 } [])) =
      some .xchgTooManySteps := by decide

/-- X10 with a payload over `MAX_PAYLOAD_LEN`: on a closed port only the warning of R112; on an open one a list
whose second step alone is over it sends step 0. -/
theorem test_xchgStart_over_limit :
    outOf (exec (.xchgStart [setSpeedStep, ⟨⟨0x81, [0x00, 0x00, 0x00]⟩, 2, [], 1000⟩])
      { State.reset with cfg := { tvMotor with maxFrameLen := some 8 } }) = some [.warn .start .portClosed] ∧
    outOf (exec (.xchgStart [setSpeedStep, ⟨⟨0x81, [0x00, 0x00, 0x00]⟩, 2, [], 1000⟩])
      (opened { tvMotor with maxFrameLen := some 8 } [.ok])) = some [.tx frameS1 .ok] := by decide

theorem test_xchgResponse :
    (nextOf (exec (.xchgResponse ⟨0x82, [0x00, 0x02]⟩) (waiting 0 60 [.fail]))).map (fun t => (t.xc, t.out)) =
      some (Xc.idle, [.handler 0 1 ⟨0x82, [0x00, 0x02]⟩, .tx [0x10, 0x02, 0x81, 0x00, 0x00, 0x93, 0x10, 0x03] .fail,
        .warn .exchangeStep (.stepIndex 1)]) ∧
    refusalOf (exec (.xchgResponse ⟨0x83, [0x00, 0x02]⟩) (waiting 0 60 [])) = some .responseWithoutMatch := by decide

theorem test_xchgTimeout :
    (nextOf (exec .xchgTimeout (waiting 0 1 [.ok]))).map (fun t => (t.xc, t.out)) =
      some (⟨true, [setSpeedStep, runStep], 1, true, 1000⟩,
        [.diag .exchangeTimeout (.stepIndex 0), .tx [0x10, 0x02, 0x81, 0x00, 0x00, 0x93, 0x10, 0x03] .ok]) ∧
    outOf (exec .xchgTimeout (waiting 1 1 [])) = some [.diag .exchangeTimeout (.stepIndex 1), .done true] := by decide

theorem test_xchgCancel :
    (nextOf (exec .xchgCancel (waiting 1 9 []))).map (fun t => (t.xc, t.out)) = some (Xc.idle, []) := by decide

theorem test_tick :
    (nextOf (exec .tick (waiting 1 2 []))).map (fun t => (t.xc.timerRem, t.out)) = some (1, []) ∧
    outOf (exec .tick (waiting 1 1 [])) = some [.diag .exchangeTimeout (.stepIndex 1), .done true] ∧
    nextOf (exec .tick (opened tvMotor [])) = some (opened tvMotor []) := by decide

/-! ### Connection and reset: CN1, CN2, CN3, CN4, CN6, RE1 -/

theorem test_connOpen :
    (nextOf (exec (.connOpen [0x43] 9600 .ok) State.reset)).map (fun t => (t.connOpen, t.out)) = some (true, []) ∧
    (nextOf (exec (.connOpen [0x43] 9600 .fail) State.reset)).map (fun t => (t.connOpen, t.out)) =
      some (false, [.warn .openPort .ioError]) ∧
    (nextOf (exec (.connOpen [0x43] 9600 .ok) { opened tv [] with rb := [0x10, 0x02, 0x82] })).map
        (fun t => (t.rb, t.out)) = some ([0x10, 0x02, 0x82], [.warn .openPort .alreadyOpen]) := by decide

theorem test_connClose :
    nextOf (exec .connClose { waiting 1 5 [] with rb := [0x10, 0x02], ds := { Ds.blank with speed := some 7 } }) =
      some { State.reset with cfg := tvMotor, ds := { Ds.blank with speed := some 7 } } := by decide

theorem test_connSend :
    outOf (exec (.connSend 0x82 [0x02]) (opened tvMotor [.ok])) =
      some [.tx [0x10, 0x02, 0x82, 0x02, 0x96, 0x10, 0x03] .ok] ∧
    outOf (exec (.connSend 0x80 [0x00, 0x00]) (opened tvMotor [.fail])) =
      some [.tx [0x10, 0x02, 0x80, 0x00, 0x00, 0x92, 0x10, 0x03] .fail, .warn .send (.command 0x80)] := by decide

theorem test_reset :
    nextOf (exec (.reset tvMotor) { waiting 0 5 [] with rb := [0x10, 0x02, 0x82, 0x00], out := [.done true] }) =
      some { State.reset with cfg := tvMotor } := by decide

/-! ### Fetching: R139, R155, and the host's word placement -/

/-- X3: of a response and a tick pending at one instant the response is taken first, whatever their order. -/
theorem test_step_priority :
    (nextOf (step { waiting 1 1 [] with inbox := [[.event 0x06 .none,
        .event 0x03 (.bytes [0x10, 0x02, 0x81, 0x00, 0x01, 0x94, 0x10, 0x03])]] })).map (fun t => (t.out, t.inbox)) =
      some ([.frame ⟨0x81, [0x00, 0x01]⟩, .handler 1 2 ⟨0x81, [0x00, 0x01]⟩, .done false], [[.event 0x06 .none]]) := by
  decide

theorem test_step_idle : nextOf (step State.reset) = some State.reset := by decide

theorem test_withFetchWord :
    (nextOf (step (State.reset.withFetchWord 8 0x01))).map State.connOpen = some true ∧
    (nextOf (step (State.reset.withFetchWord 8 0x05))).isSome = true ∧
    outOf (step ({ State.reset with answers := [.ok] }.withFetchWord 24 0x100282)) =
      some [.frame ⟨0x82, zeroPayload⟩, .tx [0x10, 0x02, 0x82, 0x00, 0x00, 0x94, 0x10, 0x03] .ok] := by decide

/-! ### Witnesses: for every statement with hypotheses, values that meet them, clause by clause -/

/-- A configuration with every limit finite: `MAX_FRAME_LEN` 8, so `MAX_PAYLOAD_LEN` 2; a buffer of at most 8
bytes; at most 2 steps. -/
def tvTight : Cfg := { tvMotor with maxFrameLen := some 8, rbCap := some 8, maxSteps := some 2 }

/-- A step with a payload of exactly `n` bytes. -/
def stepOf (n : Nat) : ExchangeStep := ⟨⟨0x82, List.replicate n 0x00⟩, 0, [], 1⟩

theorem witness_ChecksumLaws :
    List.Perm ([0x10, 0x02] : Bytes) [0x02, 0x10] ∧ decodeFrame frameS1 = .ok ⟨0x82, [0x02, 0x58]⟩ ∧
    (2 ≤ 2 ∧ 2 + 2 < frameS1.length ∧ frameS1[2]? ≠ some 0x83) ∧
    (2 ≤ 5 ∧ 5 + 2 < frameS1.length ∧ frameS1[5]? ≠ some 0xD4) := by decide

theorem witness_ValidFramesAreWireImages :
    decodeFrame frameS1 = .ok ⟨0x82, [0x02, 0x58]⟩ ∧ encodeFrame 0x82 [0x02, 0x58] = frameS1 := by decide

/-- DE8, DE10, DE12, DE2, DE1: one input per clause, each of length 7 or 8. -/
theorem witness_DecodeReportsFirstFailure :
    ([0x10, 0x02, 0x82, 0x02, 0x96, 0x10, 0x03] : Bytes).length < 8 ∧
    (∀ raw ∈ ([[0x11, 0x02, 0x82, 0x02, 0x58, 0xEE, 0x10, 0x04]] : List Bytes),
      8 ≤ raw.length ∧ raw.take 2 ≠ [0x10, 0x02]) ∧
    (∀ raw ∈ ([[0x10, 0x02, 0x82, 0x02, 0x58, 0x00, 0x10, 0x04]] : List Bytes),
      8 ≤ raw.length ∧ raw.take 2 = [0x10, 0x02] ∧ raw.drop (raw.length - 2) ≠ [0x10, 0x03]) ∧
    (∀ raw ∈ ([[0x10, 0x02, 0x82, 0x02, 0x58, 0xD4, 0x10, 0x03]] : List Bytes),
      8 ≤ raw.length ∧ raw.take 2 = [0x10, 0x02] ∧ raw.drop (raw.length - 2) = [0x10, 0x03] ∧
        raw[raw.length - 3]? ≠ some (sum8 (raw.take (raw.length - 3)))) ∧
    (8 ≤ frameS1.length ∧ frameS1.take 2 = [0x10, 0x02] ∧ frameS1.drop (frameS1.length - 2) = [0x10, 0x03] ∧
      frameS1[frameS1.length - 3]? = some (sum8 (frameS1.take (frameS1.length - 3)))) := by decide

theorem witness_CodecRoundTrip :
    2 ≤ ([0x02, 0x58] : Bytes).length ∧ decodeFrame frameS1 = .ok ⟨0x82, [0x02, 0x58]⟩ ∧
    ([0x02] : Bytes).length < 2 ∧ (0x11 : Byte) ≠ sum8 ([0x10, 0x02, 0x82] ++ [0x02, 0x58]) := by decide

theorem witness_SingleByteErrorIsRejected :
    decodeFrame frameS1 = .ok ⟨0x82, [0x02, 0x58]⟩ ∧ (0 < frameS1.length ∧ frameS1[0]? ≠ some 0x11) ∧
    (7 < frameS1.length ∧ frameS1[7]? ≠ some 0x04) := by decide

theorem witness_PureOperationsReturnTheirValue :
    decodeFrame frameS1 = .ok ⟨0x82, [0x02, 0x58]⟩ ∧ decodeFrame [] = .error .tooShort := by decide

/-- Both parts: a sender of either answer and a receiver. -/
theorem witness_SynthesizedTelemetryDecodesBack :
    (opened tv [.ok]).connOpen = true ∧ (opened tv [.fail]).connOpen = true ∧
    (opened tvMotor []).cfg.ctx = .motor := by decide

theorem witness_DecodeEncodeRoundTrip :
    ((Instr.ctrlStop [0x00, 0x00]).wellFormed = true ∧ (Instr.ctrlStop [0x00, 0x00]).context = some .control) ∧
    ((Instr.motorGear [0x00, 0x00]).wellFormed = true ∧ (Instr.motorGear [0x00, 0x00]).context = some .motor) ∧
    ((Instr.xchgStart [stepOf 0]).wellFormed = true ∧ (Instr.xchgStart [stepOf 0]).context = none) := by decide

theorem witness_CandidatesAreFramed :
    (feed [] [0x10, 0x02, 0xAA, 0x03]).1 = [[0x10, 0x02, 0xAA, 0x03]] := by decide

/-- A buffer of 3 bytes; 4 bytes without a header, the last of them 10; a header with no 03; the 3-byte
candidate; a candidate of 4 bytes. -/
theorem witness_FeedFollowsItsSteps :
    ([0xFF] ++ [0xFF, 0xFF] : Bytes).length < 4 ∧
    (4 ≤ ([0xFF] ++ [0xFF, 0xFF, 0x10] : Bytes).length ∧ NoHeader ([0xFF] ++ [0xFF, 0xFF, 0x10])) ∧
    (4 ≤ ([0x10] ++ [0x02, 0x82, 0x02] : Bytes).length ∧
      ([0x10] ++ [0x02, 0x82, 0x02] : Bytes) = [] ++ 0x10 :: 0x02 :: [0x82, 0x02] ∧ NoHeader ([] ++ [0x10]) ∧
      (0x03 : Byte) ∉ ([0x82, 0x02] : Bytes)) ∧
    (4 ≤ ([0x10] ++ [0x10, 0x02, 0x03] : Bytes).length ∧
      ([0x10] ++ [0x10, 0x02, 0x03] : Bytes) = [0x10] ++ 0x10 :: 0x02 :: 0x03 :: [] ∧
      NoHeader ([0x10] ++ [0x10])) ∧
    (4 ≤ ([] ++ [0x10, 0x02, 0xAA, 0x03] : Bytes).length ∧
      ([] ++ [0x10, 0x02, 0xAA, 0x03] : Bytes) = [] ++ 0x10 :: 0x02 :: ([0xAA] ++ 0x03 :: []) ∧
      NoHeader ([] ++ [0x10]) ∧ ([0xAA] : Bytes) ≠ [] ∧ (0x03 : Byte) ∉ ([0xAA] : Bytes)) := by
  have h1 : NoHeader [0x10] := by
    intro i
    match i with
    | 0 => decide
    | i + 1 => simp
  have h2 : NoHeader [0x10, 0x10] := by
    intro i
    match i with
    | 0 => decide
    | 1 => decide
    | i + 2 => simp
  have h3 : NoHeader [0xFF, 0xFF, 0xFF, 0x10] := by
    intro i
    match i with
    | 0 => decide
    | 1 => decide
    | 2 => decide
    | 3 => decide
    | i + 4 => simp
  exact ⟨by decide, ⟨by decide, h3⟩, ⟨by decide, by decide, h1, by decide⟩, ⟨by decide, by decide, h2⟩,
    ⟨by decide, by decide, h1, by decide, by decide⟩⟩

theorem witness_ReassemblyUnderChunking :
    decodeFrame frameS1 = .ok ⟨0x82, [0x02, 0x58]⟩ ∧ 0x03 ∉ frameS1.dropLast ∧
    [[0x10], [0x02, 0x82, 0x02, 0x58, 0xEE, 0x10], [0x03]].flatten = frameS1 := by decide

theorem witness_GarbageIsDiscarded :
    NoHeader [0xFF, 0x10] ∧ decodeFrame frameS1 = .ok ⟨0x82, [0x02, 0x58]⟩ ∧ 0x03 ∉ frameS1.dropLast := by
  refine ⟨?_, by decide, by decide⟩
  intro i
  match i with
  | 0 => decide
  | 1 => decide
  | i + 2 => simp

theorem witness_CandidatesIgnoreChunkBoundaries :
    ([[0x10], [], [0x02, 0x82]] : List Bytes).flatten = [[0x10, 0x02], [0x82]].flatten := by decide

/-- The first 03 at index 3, the least at which a candidate is yielded, and at the checksum (EN15). -/
theorem witness_InteriorTrailerTruncates :
    (decodeFrame (encodeFrame 0x82 [0x03, 0x00]) = .ok ⟨0x82, [0x03, 0x00]⟩ ∧
      0x03 ∈ (encodeFrame 0x82 [0x03, 0x00]).dropLast ∧ find (encodeFrame 0x82 [0x03, 0x00]) 0x03 0 = some 3) ∧
    (decodeFrame (encodeFrame 0x80 [0x70, 0x01]) = .ok ⟨0x80, [0x70, 0x01]⟩ ∧
      0x03 ∈ (encodeFrame 0x80 [0x70, 0x01]).dropLast ∧ find (encodeFrame 0x80 [0x70, 0x01]) 0x03 0 = some 5) := by
  decide

/-- At the capacity and one byte past it. -/
theorem witness_RsmFeedRunsAlone :
    (∀ cap, (opened tvTight []).cfg.rbCap = some cap → (opened tvTight []).rb.length + frameS1.length ≤ cap) ∧
    ((opened tvTight []).cfg.rbCap = some 8 ∧ 8 < (opened tvTight []).rb.length + (0x00 :: frameS1).length) := by
  refine ⟨?_, by decide⟩
  intro cap h
  cases h
  decide

theorem witness_ControlRowsSendFixedAcks :
    ((opened tv [.ok]).connOpen = true ∧ nextAnswer (opened tv [.ok]) = .ok) ∧
    ((opened tv [.fail]).connOpen = true ∧ nextAnswer (opened tv [.fail]) = .fail) := by decide

theorem witness_ControlTelemetryRow :
    ((opened tv [.ok]).connOpen = true ∧ nextAnswer (opened tv [.ok]) = .ok ∧
      lightOf (opened tv [.ok]).cfg.synStatus = some .green) ∧
    (nextAnswer (opened { tv with synStatus := 0x7F } [.ok]) = .ok ∧
      lightOf (opened { tv with synStatus := 0x7F } [.ok]).cfg.synStatus = none) ∧
    nextAnswer (opened tv [.fail]) = .fail := by decide

theorem witness_WritesOnClosedPortOnlyWarn :
    ({ waiting 0 5 [] with connOpen := false }).connOpen = false ∧ (waiting 0 5 []).xc.active = true ∧
    (waiting 0 5 []).xc.steps[(waiting 0 5 []).xc.cursor]? = some setSpeedStep ∧
    (waiting 0 5 []).xc.steps[(waiting 0 5 []).xc.cursor + 1]? = some runStep ∧
    (0x82 : Byte) = setSpeedStep.request.command ∧ (waiting 0 5 []).xc.timerArmed = true := by decide

/-- RoutesFrom, both clauses, for the MOTOR row statements: no exchange, an exchange on another step, and the
current step. -/
theorem witness_MotorRows :
    matchesStep ⟨0x80, [0x00, 0x00]⟩ (opened tvMotor []) = false ∧
    matchesStep ⟨0x81, [0x00, 0x01]⟩ (waiting 0 5 []) = false ∧
    matchesStep ⟨0x81, [0x00, 0x01]⟩ (waiting 1 5 []) = true ∧
    matchesStep ⟨0x82, [0x00, 0x02]⟩ (waiting 0 5 []) = true := by decide

theorem witness_MotorTelemetryRow :
    lightOf 0x2B = some .blue ∧ lightOf 0x2C = none ∧
    ([0x0B, 0x00, 0x64, 0x00, 0xDC, 0x19, 0x00] : Bytes).length < 8 ∧ ([] : Bytes).length < 8 := by decide

/-- Payloads of 7 and of 2 bytes, the ends of what a decoded frame can have below 8. -/
theorem witness_ShortTelemetryIsDropped :
    ([0x0B, 0x00, 0x64, 0x00, 0xDC, 0x19, 0x00] : Bytes).length < 8 ∧ (opened tvMotor []).cfg.ctx = .motor ∧
    (opened tvMotor []).connOpen = true ∧ (opened tvMotor []).cfg.rbCap = none ∧
    (∀ p ∈ ([[0x0B, 0x00, 0x64, 0x00, 0xDC, 0x19, 0x00], [0x0B, 0x00]] : List Bytes),
      (feed (opened tvMotor []).rb (encodeFrame 0x21 p)).1 = [encodeFrame 0x21 p] ∧
        decodeFrame (encodeFrame 0x21 p) = .ok ⟨0x21, p⟩) := by decide

theorem witness_DispatchRunsTheRow :
    (opened tv []).cfg.ctx = .control ∧ (opened tvMotor []).cfg.ctx = .motor := by decide

theorem witness_DispatchCompletes : 2 ≤ (⟨0x83, [0x05, 0x07]⟩ : Frame).payload.length := by decide

theorem witness_UnknownCommandIsDropped :
    (0x99 : Byte) ∉ ([0x80, 0x81, 0x82, 0x83, 0x20, 0x21] : Bytes) ∧ (opened tv []).connOpen = true ∧
    (opened tv []).cfg.rbCap = none ∧
    (feed (opened tv []).rb (encodeFrame 0x99 [0x00, 0x00])).1 = [encodeFrame 0x99 [0x00, 0x00]] ∧
    decodeFrame (encodeFrame 0x99 [0x00, 0x00]) = .ok ⟨0x99, [0x00, 0x00]⟩ := by decide

/-- The limit on steps met with equality, a payload over `MAX_PAYLOAD_LEN`; open with either answer, closed. -/
theorem witness_XchgStartSendsTheFirstStep :
    tvTight.ctx = .motor ∧ (∀ m, tvTight.maxSteps = some m → [stepOf 2, stepOf 3].length ≤ m) ∧
    (∀ st ∈ [stepOf 2, stepOf 3], 1 ≤ st.timeout) ∧
    ((opened tvTight [.ok]).connOpen = true ∧ nextAnswer (opened tvTight [.ok]) = .ok) ∧
    ((opened tvTight [.fail]).connOpen = true ∧ nextAnswer (opened tvTight [.fail]) = .fail) ∧
    ({ opened tvTight [] with connOpen := false }).connOpen = false := by
  refine ⟨by decide, ?_, by decide, by decide, by decide, by decide⟩
  intro m h
  cases h
  decide

theorem witness_XchgStartRefusesBrokenPreconditions :
    (opened tv []).cfg.ctx = .control ∧ (opened tvTight []).cfg.ctx = .motor ∧
    ([stepOf 2, stepOf 2, stepOf 2] ≠ [] ∧ tvTight.maxSteps = some 2 ∧ 2 < [stepOf 2, stepOf 2, stepOf 2].length) ∧
    ((opened tvMotor []).cfg.maxSteps = none ∧ ∃ st ∈ [{ stepOf 2 with timeout := 0 }], st.timeout = 0) := by
  decide

theorem witness_XchgResponseAdvances :
    ((waiting 0 5 [.ok]).xc.active = true ∧ (waiting 0 5 [.ok]).xc.steps[(waiting 0 5 [.ok]).xc.cursor]? = some setSpeedStep ∧
      (0x82 : Byte) = setSpeedStep.request.command ∧
      (waiting 0 5 [.ok]).xc.steps[(waiting 0 5 [.ok]).xc.cursor + 1]? = some runStep ∧
      (waiting 0 5 [.ok]).connOpen = true ∧ nextAnswer (waiting 0 5 [.ok]) = .ok) ∧
    nextAnswer (waiting 0 5 [.fail]) = .fail ∧
    ((waiting 1 5 []).xc.steps[(waiting 1 5 []).xc.cursor]? = some runStep ∧
      (waiting 1 5 []).xc.steps.length = (waiting 1 5 []).xc.cursor + 1) := by decide

theorem witness_XchgTimeoutAdvances :
    ((waiting 0 1 [.ok]).xc.active = true ∧ (waiting 0 1 [.ok]).xc.timerArmed = true ∧
      (waiting 0 1 [.ok]).xc.cursor < (waiting 0 1 [.ok]).xc.steps.length ∧
      (waiting 0 1 [.ok]).xc.steps[(waiting 0 1 [.ok]).xc.cursor + 1]? = some runStep ∧
      (waiting 0 1 [.ok]).connOpen = true ∧ nextAnswer (waiting 0 1 [.ok]) = .ok) ∧
    nextAnswer (waiting 0 1 [.fail]) = .fail ∧
    ((waiting 1 1 []).xc.cursor < (waiting 1 1 []).xc.steps.length ∧
      (waiting 1 1 []).xc.steps.length = (waiting 1 1 []).xc.cursor + 1) := by decide

theorem witness_TickCountsDown :
    (opened tvMotor []).xc.timerArmed = false ∧
    ((waiting 1 2 []).xc.timerArmed = true ∧ 1 < (waiting 1 2 []).xc.timerRem) ∧
    ((waiting 1 1 []).xc.active = true ∧ (waiting 1 1 []).xc.timerArmed = true ∧ (waiting 1 1 []).xc.timerRem ≤ 1) := by
  decide

theorem witness_TimerExpiresOnItsLastTick :
    (waiting 1 3 []).xc.active = true ∧ (waiting 1 3 []).xc.timerArmed = true ∧ 1 ≤ (waiting 1 3 []).xc.timerRem ∧
    2 < (waiting 1 3 []).xc.timerRem := by decide

/-- A running exchange, its count at the current step's full timeout. -/
theorem witness_waiting : XcWaiting (waiting 0 100 []).cfg (waiting 0 100 []).xc :=
  ⟨rfl, fun _ h => (by cases h), by decide, setSpeedStep, rfl, by decide, by decide⟩

theorem witness_ExchangeEndsWithinItsTimeouts :
    (waiting 0 100 []).xc.active = true ∧ XcWaiting (waiting 0 100 []).cfg (waiting 0 100 []).xc ∧
    ticksLeft (waiting 0 100 []).xc = 1100 := ⟨rfl, witness_waiting, by decide⟩

/-- Also for ConnCloseCancelsAndClears and RxIgnoredWhileClosed. -/
theorem witness_ConnOpenOpensOnce :
    State.reset.connOpen = false ∧ (opened tv []).connOpen = true := by decide

theorem witness_ConnSendWritesOneFrame :
    ((opened tvTight [.ok]).connOpen = true ∧ nextAnswer (opened tvTight [.ok]) = .ok) ∧
    ((opened tvTight [.fail]).connOpen = true ∧ nextAnswer (opened tvTight [.fail]) = .fail) ∧
    ({ opened tvTight [] with connOpen := false }).connOpen = false := by decide

/-- No candidate, one that fails decoding, one that decodes, two of which the first fails or decodes; the buffer
filled to its capacity. Also for RxCompletes. -/
theorem witness_RxProcessesACandidate :
    (opened tvTight []).connOpen = true ∧
    (∀ cap, (opened tvTight []).cfg.rbCap = some cap → (opened tvTight []).rb.length + frameS1.length ≤ cap) ∧
    (feed (opened tvTight []).rb [0x10, 0x02, 0x82]).1 = [] ∧
    ((feed (opened tvTight []).rb [0x10, 0x02, 0xAA, 0x03]).1 = [[0x10, 0x02, 0xAA, 0x03]] ∧
      decodeFrame [0x10, 0x02, 0xAA, 0x03] = .error .tooShort) ∧
    ((feed (opened tvTight []).rb frameS1).1 = [frameS1] ∧ decodeFrame frameS1 = .ok ⟨0x82, [0x02, 0x58]⟩) ∧
    ((opened tv []).connOpen = true ∧ (opened tv []).cfg.rbCap = none ∧
      (feed (opened tv []).rb ([0x10, 0x02, 0xAA, 0x03] ++ frameS1)).1 = [[0x10, 0x02, 0xAA, 0x03], frameS1] ∧
      (feed (opened tv []).rb (frameS1 ++ [0x10, 0x02, 0xAA, 0x03])).1 = [frameS1, [0x10, 0x02, 0xAA, 0x03]]) := by
  refine ⟨by decide, ?_, by decide, by decide, by decide, by decide⟩
  intro cap h
  cases h
  decide

theorem witness_RxRunsTheTableRow :
    (opened tvTight []).connOpen = true ∧ (opened tvTight []).rb = [] ∧ 2 ≤ ([0x02, 0x58] : Bytes).length ∧
    0x03 ∉ ([0x02, 0x58] : Bytes) ∧ sum8 ([0x10, 0x02, Command.setSpeed.code] ++ [0x02, 0x58]) ≠ 0x03 ∧
    (∀ cap, (opened tvTight []).cfg.rbCap = some cap → ([0x02, 0x58] : Bytes).length + 6 ≤ cap) := by
  refine ⟨by decide, by decide, by decide, by decide, by decide, ?_⟩
  intro cap h
  cases h
  decide

/-- A run of RX in each context that answers a next state. -/
theorem witness_rx_runs :
    ((opened tv [.ok]).cfg.ctx = .control ∧ (opened tv [.ok]).connOpen = true ∧
      (nextOf (exec (.rx frameS1) (opened tv [.ok]))).isSome = true) ∧
    ((opened tvMotor []).cfg.ctx = .motor ∧ (opened tvMotor []).xc.active = false ∧
      (nextOf (exec (.rx frameS1) (opened tvMotor []))).isSome = true) := by decide

/-- The hypotheses of ControlAnswersEachTableFrameOnce and IdleMotorNeverTransmitsOnReceive. -/
theorem witness_ControlAnswersEachTableFrameOnce :
    ∃ t, (opened tv [.ok]).cfg.ctx = .control ∧ (opened tv [.ok]).connOpen = true ∧
      exec (.rx frameS1) (opened tv [.ok]) = .next t := ⟨_, rfl, rfl, rfl⟩

theorem witness_IdleMotorNeverTransmitsOnReceive :
    ∃ t, (opened tvMotor []).cfg.ctx = .motor ∧ (opened tvMotor []).xc.active = false ∧
      exec (.rx frameS1) (opened tvMotor []) = .next t := ⟨_, rfl, rfl, rfl⟩

theorem witness_settled : RbSettled [0x10, 0x02, 0x82, 0x02] :=
  .inr ⟨rfl, fun i hi => by
    match i with
    | 0 => cases hi
    | 1 => decide
    | 2 => decide
    | 3 => decide
    | i + 4 => simp⟩

/-- The invariant holds in WAIT(0) with a partial frame buffered, and the step taken there is a tick. -/
theorem witness_sound (inbox : List (List InWord)) :
    BlockSound { waiting 0 100 [] with rb := [0x10, 0x02, 0x82, 0x02], inbox := inbox } where
  rbSettled := witness_settled
  withinCap := fun _ h => by cases h
  xcSound := .inr ⟨rfl, witness_waiting⟩
  xcPlaced := fun _ => ⟨rfl, rfl⟩
  closedEmpty := fun h => by cases h

theorem witness_StepKeepsTheBlockSound :
    ∃ s t, BlockSound s ∧ InputsOnly s ∧ s.xc.active = true ∧ s.rb ≠ [] ∧ step s = .next t :=
  ⟨_, _, witness_sound [[.event 0x06 .none]], by unfold InputsOnly; decide, rfl, by simp, rfl⟩

theorem witness_NothingFiresAfterClose :
    ∃ s t u, BlockSound s ∧ s.xc.active = true ∧ exec .connClose s = .next t ∧
      (∀ i ∈ [Instr.tick, .rx [0x58, 0xEE, 0x10, 0x03]], i.isInput = true ∧ i.isStart = false) ∧
      runEvents [.tick, .rx [0x58, 0xEE, 0x10, 0x03]] t = .next u ∧ s.cfg.ctx = .motor ∧
      (∀ i ∈ [Instr.tick, .rx [0x58, 0xEE, 0x10, 0x03]], i.isReset = false ∧ i.isSend = false) :=
  ⟨_, _, _, witness_sound [], rfl, rfl, by decide, rfl, rfl, by decide⟩

/-- The hypotheses of StateIsTouchedByItsOperationsOnly, DisplayEventsReplayTheCache, NothingIsSentWhileClosed
and CursorNeverMovesBack: TICK answers a next state, is no RESET, no XCHG.START, no RX,
leaves the exchange active, and runs on a closed connection too. -/
theorem witness_WholeMachineRules :
    (∃ t, exec .tick (waiting 0 2 []) = .next t ∧ t.xc.active = true) ∧
    (∃ t, exec .tick { waiting 0 2 [] with connOpen := false } = .next t) ∧
    Instr.tick.isReset = false ∧ Instr.tick.isStart = false ∧ Instr.tick.isRx = false ∧
    Instr.tick.writesOpen = false ∧ Instr.tick.writesRb = false ∧ Instr.tick.writesDs = false ∧
    Instr.connClose.writesDs = false ∧ (Instr.connSend 0x82 []).writesXc = false :=
  ⟨⟨_, rfl, rfl⟩, ⟨_, rfl⟩, rfl, rfl, rfl, rfl, rfl, rfl, rfl, rfl⟩

theorem witness_StepRunsTheDecodedInstruction :
    fetch State.reset = none ∧
    (fetch { opened tvMotor [] with inbox := [[.event 0x06 .none]] } = some (.event 0x06 .none, opened tvMotor []) ∧
      decode (opened tvMotor []).cfg.ctx (.event 0x06 .none) = .ok .tick) ∧
    (fetch { opened tvMotor [] with inbox := [[.frame frameS1]] } = some (.frame frameS1, opened tvMotor []) ∧
      (opened tvMotor []).connOpen = true ∧ decodeFrame frameS1 = .ok ⟨0x82, [0x02, 0x58]⟩ ∧
      decode (opened tvMotor []).cfg.ctx (.frame frameS1) = .ok (.motorSetSpeed [0x02, 0x58])) ∧
    (fetch { opened tvMotor [] with inbox := [[.frame []]] } = some (.frame [], opened tvMotor []) ∧
      decodeFrame [] = .error .tooShort) ∧
    (fetch { opened tvMotor [] with inbox := [[.frame (encodeFrame 0x99 [0x00, 0x00])]] } =
        some (.frame (encodeFrame 0x99 [0x00, 0x00]), opened tvMotor []) ∧
      decodeFrame (encodeFrame 0x99 [0x00, 0x00]) = .ok ⟨0x99, [0x00, 0x00]⟩ ∧
      (0x99 : Byte) ∉ ([0x80, 0x81, 0x82, 0x83, 0x20, 0x21] : Bytes)) ∧
    (fetch { State.reset with inbox := [[.frame frameS1]] } = some (.frame frameS1, State.reset) ∧
      State.reset.connOpen = false) := by decide

theorem witness_CoincidentEventsAreTakenByPriority :
    pickFirst [.event 0x06 .none, .event 0x03 (.bytes []), .event 0x03 (.bytes [0x10])] =
      some (.event 0x03 (.bytes []), [.event 0x06 .none, .event 0x03 (.bytes [0x10])]) ∧
    pickFirst [.event 0x06 .none] = some (.event 0x06 .none, []) := by decide

theorem witness_StartMotorExpands :
    (opened tvMotor [.ok]).cfg.ctx = .motor ∧ (opened tvMotor [.ok]).connOpen = true ∧
    (opened tvMotor [.ok]).cfg.maxSteps = none ∧
    nextAnswer (opened tvMotor [.ok]) = .ok ∧ 1 ≤ 1 := by decide

/-- One past the capacity, and each refused operand. -/
theorem witness_InputsOutsideTheSpecAreRefused :
    (tvTight.rbCap = some 8 ∧ 8 < (opened tvTight []).rb.length + (0x00 :: frameS1).length ∧
      (opened tvTight []).connOpen = true) ∧
    matchesStep ⟨0x83, [0x00, 0x00]⟩ (waiting 0 5 []) = false ∧ State.reset.xc.active = false ∧
    ([0x05] : Bytes).length < 2 ∧
    (fetch { State.reset with inbox := [[.event 0x07 .none]] } = some (.event 0x07 .none, State.reset) ∧
      decodeEvent 0x07 .none = .error (.unknownEvent 0x07)) := by decide

end Sys2Proof.Tests
end

/-! Taking and running one word (R6): what `fetch` answers, one equation per branch of `step`, `runWord`,
`process` and the frame decoder, and the agreement of DISP.DISPATCH with the decoded row (R60, R90). -/

namespace Sys2Proof.Machine

theorem fetch_changes_inbox_only {s t : State} {w : InWord} (h : fetch s = some (w, t)) :
    ∃ later, t = { s with inbox := later } := by
  obtain ⟨⟨_, later⟩, _, heq⟩ := Option.map_eq_some_iff.mp h
  exact ⟨later, (Prod.mk.inj heq).2.symm⟩

theorem fetch_of_lone_word {s : State} {w : InWord} {later : List (List InWord)} (h : s.inbox = [w] :: later) :
    fetch s = some (w, { s with inbox := later }) := by
  simp [fetch, fetchFrom, pickFirst, h]

theorem step_of_fetch_none {s : State} (h : fetch s = none) : step s = .next s := by
  simp [step, h]

theorem step_of_fetch_some {s t : State} {w : InWord} (h : fetch s = some (w, t)) : step s = runWord w t := by
  simp [step, h]

theorem runWord_event {code : Byte} {args : EventArgs} {i : Instr} (s : State) (h : decodeEvent code args = .ok i) :
    runWord (.event code args) s = exec i s := by
  simp [runWord, h]

theorem runWord_frame_open {s : State} (raw : Bytes) (h : s.connOpen = true) :
    runWord (.frame raw) s = process raw s := by
  simp [runWord, h]

theorem runWord_frame_closed {s : State} (raw : Bytes) (h : s.connOpen = false) :
    runWord (.frame raw) s = .next s := by
  simp [runWord, h]

theorem process_of_error {raw : Bytes} {e : FrameError} (s : State) (h : decodeFrame raw = .error e) :
    process raw s = .next (raise (errorClassOf e) (.candidate raw) s) := by
  simp [process, h]

theorem process_of_ok {raw : Bytes} {f : Frame} (s : State) (h : decodeFrame raw = .ok f) :
    process raw s = execDispDispatch f (emit (.frame f) s) := by
  simp [process, h]

theorem decode_frame_of_error {raw : Bytes} {e : FrameError} (ctx : Ctx) (h : decodeFrame raw = .error e) :
    decode ctx (.frame raw) = .error (.frame e) := by
  simp [decode, decodeFrameWord, h]

theorem decode_frame_of_unassigned {raw : Bytes} {f : Frame} (ctx : Ctx) (h : decodeFrame raw = .ok f)
    (hc : Command.ofByte f.command = none) : decode ctx (.frame raw) = .error (.unknownCommand f.command) := by
  simp [decode, decodeFrameWord, h, hc]

/-- A frame that decodes to an instruction carries an assigned command, and the instruction is its row (R60). -/
theorem decode_frame_ok {raw : Bytes} {f : Frame} {ctx : Ctx} {i : Instr} (h : decodeFrame raw = .ok f)
    (hi : decode ctx (.frame raw) = .ok i) :
    ∃ c, Command.ofByte f.command = some c ∧ i = frameRow ctx c f.payload := by
  cases hc : Command.ofByte f.command with
  | none => simp [decode_frame_of_unassigned ctx h hc] at hi
  | some c => exact ⟨c, rfl, by simpa [decode, decodeFrameWord, h, hc] using hi.symm⟩

theorem ofByte_eq_none_of_unassigned {b : Byte} (h : b ∉ ([0x80, 0x81, 0x82, 0x83, 0x20, 0x21] : Bytes)) :
    Command.ofByte b = none := by
  simp only [List.mem_cons, not_or] at h
  obtain ⟨hstop, hrun, hspeed, hgear, hversion, htelemetry, -⟩ := h
  rw [Command.ofByte, if_neg hstop, if_neg hrun, if_neg hspeed, if_neg hgear, if_neg hversion, if_neg htelemetry]

/-- DISP.DISPATCH runs the row that the decoder gives the frame in the same context (R60, R90). -/
theorem execDispDispatch_eq_exec_frameRow {f : Frame} {c : Command} (s : State)
    (h : Command.ofByte f.command = some c) :
    execDispDispatch f s = exec (frameRow s.cfg.ctx c f.payload) s := by
  cases hctx : s.cfg.ctx <;> cases c <;> simp [execDispDispatch, h, hctx, frameRow, exec]

theorem execDispDispatch_of_unassigned {f : Frame} (s : State) (h : Command.ofByte f.command = none) :
    execDispDispatch f s = .next (raise .unknownCommand (.command f.command) s) := by
  simp [execDispDispatch, h]

theorem process_runs_decoded {raw : Bytes} {f : Frame} {i : Instr} {s : State} (h : decodeFrame raw = .ok f)
    (hi : decode s.cfg.ctx (.frame raw) = .ok i) : process raw s = exec i (emit (.frame f) s) := by
  obtain ⟨c, hc, rfl⟩ := decode_frame_ok h hi
  rw [process_of_ok s h, execDispDispatch_eq_exec_frameRow _ hc, emit_cfg]

theorem process_of_unassigned {raw : Bytes} {f : Frame} (s : State) (h : decodeFrame raw = .ok f)
    (hc : Command.ofByte f.command = none) :
    process raw s = .next (raise .unknownCommand (.command f.command) (emit (.frame f) s)) := by
  rw [process_of_ok s h, execDispDispatch_of_unassigned _ hc]

/-- Settles O57: `fetch` decides whether a word is taken, and the word's kind, the connection and the decoder
decide what is run. -/
theorem stepRunsTheDecodedInstruction : Obligations.StepRunsTheDecodedInstruction := by
  refine ⟨fun _ => step_of_fetch_none, fun _ _ _ => fetch_changes_inbox_only, ?event, ?decoded, ?malformed,
    ?unassigned, ?closed, fun _ _ _ => fetch_of_lone_word⟩
  case event =>
    intro s t code args i hf hd
    rw [step_of_fetch_some hf, runWord_event t hd]
  case decoded =>
    intro s t raw f i hf ho hr hd
    rw [step_of_fetch_some hf, runWord_frame_open raw ho, process_runs_decoded hr hd, emit]
  case malformed =>
    intro s t raw e hf ho hr
    refine ⟨decode_frame_of_error _ hr, ?_⟩
    rw [step_of_fetch_some hf, runWord_frame_open raw ho, process_of_error t hr, raise, emit]
  case unassigned =>
    intro s t raw f hf ho hr hmem
    have hc := ofByte_eq_none_of_unassigned hmem
    refine ⟨decode_frame_of_unassigned _ hr hc, ?_⟩
    rw [step_of_fetch_some hf, runWord_frame_open raw ho, process_of_unassigned t hr hc]
    simp [raise, emit]
  case closed =>
    intro s t raw hf hclosed
    rw [step_of_fetch_some hf, runWord_frame_closed raw hclosed]

end Sys2Proof.Machine

/-! The state's frame (R21): what each operation can do to the exchange record, to the components beside it and
to the display cache, said once per operation; then the obligations on who writes what, on the cursor, and on
the invariant between events. -/

namespace Sys2Proof.Machine

/-! ### The exchange record -/

/-- Everything one operation other than XCHG.START and RX can do to the exchange record (R115 to R120): leave it,
count its timer down, move on to the next step with that step's timer armed, or end in the idle record. -/
inductive XcMove (x : Xc) : Xc → Prop where
  | stay : XcMove x x
  | countDown (harmed : x.timerArmed = true) (hrem : 1 < x.timerRem) :
      XcMove x { x with timerRem := x.timerRem - 1 }
  | stepOn (st : ExchangeStep) (hst : x.steps[x.cursor + 1]? = some st) :
      XcMove x { x with cursor := x.cursor + 1, timerArmed := true, timerRem := st.timeout }
  | ended : XcMove x Xc.idle

theorem sendStep_xc (st : ExchangeStep) (s : State) :
    (sendStep st s).xc = Xc.idle ∨
      (sendStep st s).xc = { s.xc with timerArmed := true, timerRem := st.timeout } := by
  rcases sendStep_cases st s with ⟨_, _, h⟩ | ⟨_, _, h⟩ | ⟨_, h⟩
  · exact .inr (by rw [h])
  · exact .inl (by rw [h, cancelExchange_xc])
  · exact .inl (by rw [h, cancelExchange_xc])

/-- ADVANCE after the timer was disarmed: the idle record it completes with is `Xc.idle` (R117). -/
theorem advance_disarm_move (timedOut : Bool) (s : State) : XcMove s.xc (advance timedOut (disarm s)).xc := by
  rcases advance_cases timedOut (disarm s) with ⟨st, hst, h⟩ | ⟨_, h⟩
  · rw [h]
    rcases sendStep_xc st { disarm s with xc := { (disarm s).xc with cursor := (disarm s).xc.cursor + 1 } }
      with hx | hx
    · rw [hx]
      exact .ended
    · rw [hx]
      exact .stepOn st hst
  · rw [h]
    exact .ended

theorem resolveStep_move (st : ExchangeStep) (f : Frame) (s : State) : XcMove s.xc (resolveStep st f s).xc :=
  advance_disarm_move false (emit (.handler s.xc.cursor st.handler f) s)

theorem timeOutStep_move (s : State) : XcMove s.xc (timeOutStep s).xc :=
  advance_disarm_move true (raise .exchangeTimeout (.stepIndex s.xc.cursor) s)

theorem route_move (f : Frame) (s : State) : XcMove s.xc (route f s).xc := by
  rcases route_cases f s with ⟨st, _, _, h⟩ | ⟨_, h⟩
  · rw [h]
    exact resolveStep_move st f s
  · rw [h]
    exact .stay

/-- Everything TICK can do (R120). -/
theorem tickAfter_cases (s : State) :
    tickAfter s = s ∨ tickAfter s = timeOutStep s ∨
      (s.xc.timerArmed = true ∧ 1 < s.xc.timerRem ∧
        tickAfter s = { s with xc := { s.xc with timerRem := s.xc.timerRem - 1 } }) := by
  cases ha : s.xc.timerArmed with
  | false => exact .inl (by simp [tickAfter, ha])
  | true =>
    by_cases hr : s.xc.timerRem ≤ 1
    · exact .inr (.inl (by simp [tickAfter, ha, hr]))
    · exact .inr (.inr ⟨rfl, by omega, by simp [tickAfter, ha, hr]⟩)

theorem tickAfter_move (s : State) : XcMove s.xc (tickAfter s).xc := by
  rcases tickAfter_cases s with h | h | ⟨ha, hr, h⟩
  · rw [h]
    exact .stay
  · rw [h]
    exact timeOutStep_move s
  · rw [h]
    exact .countDown ha hr

theorem tickAfter_frame (s : State) : ExchangeFrame s (tickAfter s) := by
  rcases tickAfter_cases s with h | h | ⟨_, _, h⟩
  · rw [h]
    exact ExchangeFrame.refl s
  · rw [h]
    exact timeOutStep_frame s
  · rw [h]
    exact ⟨rfl, rfl, rfl, rfl, rfl, rfl⟩

/-- Everything the body of XCHG.START can do (R112, R119): on a closed connection it warns, a running exchange
ended first; on an open one it captures the table and sends step 0. -/
theorem startExchange_cases (first : ExchangeStep) (steps : List ExchangeStep) (s : State) :
    (s.connOpen = false ∧ ∃ x, XcMove s.xc x ∧
      startExchange first steps s = warn .start .portClosed { s with xc := x }) ∨
    (s.connOpen = true ∧ ∃ armed rem,
      startExchange first steps s = sendStep first { s with xc := ⟨true, steps, 0, armed, rem⟩ }) := by
  cases ho : s.connOpen with
  | false =>
    refine .inl ⟨rfl, ?_⟩
    cases ha : s.xc.active with
    | false => exact ⟨s.xc, .stay, by simp [startExchange, ho, ha, warn, emit]⟩
    | true => exact ⟨Xc.idle, .ended, by simp [startExchange, ho, ha, cancelExchange]⟩
  | true =>
    refine .inr ⟨rfl, ?_⟩
    cases ha : s.xc.active with
    | false => exact ⟨s.xc.timerArmed, s.xc.timerRem, by simp [startExchange, ho, ha]⟩
    | true => exact ⟨false, 0, by simp [startExchange, ho, ha, cancelExchange, Xc.idle]⟩

/-- After XCHG.START step 0 waits, or the record was left or ended: the connection is closed or the write failed. -/
theorem startExchange_xc (first : ExchangeStep) (steps : List ExchangeStep) (s : State) :
    XcMove s.xc (startExchange first steps s).xc ∨
      (s.connOpen = true ∧ (startExchange first steps s).xc = ⟨true, steps, 0, true, first.timeout⟩) := by
  rcases startExchange_cases first steps s with ⟨_, x, hmove, h⟩ | ⟨hopen, armed, rem, h⟩
  · exact .inl (h ▸ hmove)
  · rcases sendStep_xc first { s with xc := ⟨true, steps, 0, armed, rem⟩ } with hx | hx
    · exact .inl (by rw [h, hx]; exact .ended)
    · exact .inr ⟨hopen, by rw [h, hx]⟩

theorem startExchange_frame (first : ExchangeStep) (steps : List ExchangeStep) (s : State) :
    ExchangeFrame s (startExchange first steps s) := by
  rcases startExchange_cases first steps s with ⟨_, x, _, h⟩ | ⟨_, armed, rem, h⟩
  · rw [h]
    exact ⟨rfl, rfl, rfl, rfl, rfl, rfl⟩
  · rw [h]
    have k := sendStep_frame first { s with xc := ⟨true, steps, 0, armed, rem⟩ }
    exact ⟨k.cfg, k.connOpen, k.rb, k.ds, k.ret, k.inbox⟩

/-! ### The other components -/

/-- What an operation outside the connection operations, RX, RSM.FEED and RESET leaves unchanged (R21). -/
structure BlockFrame (s t : State) : Prop where
  cfg : t.cfg = s.cfg
  connOpen : t.connOpen = s.connOpen
  rb : t.rb = s.rb
  inbox : t.inbox = s.inbox

/-- An operation that writes the display cache, the output and the model's own fields only (R21). -/
structure QuietFrame (s t : State) : Prop extends BlockFrame s t where
  xc : t.xc = s.xc

/-- An operation that beside those may resolve, time out or cancel the current step. -/
structure RowEffect (s t : State) : Prop extends BlockFrame s t where
  move : XcMove s.xc t.xc

theorem BlockFrame.trans {s t u : State} (h : BlockFrame s t) (k : BlockFrame t u) : BlockFrame s u :=
  ⟨k.cfg.trans h.cfg, k.connOpen.trans h.connOpen, k.rb.trans h.rb, k.inbox.trans h.inbox⟩

theorem QuietFrame.rowEffect {s t : State} (h : QuietFrame s t) : RowEffect s t :=
  ⟨h.toBlockFrame, h.xc ▸ .stay⟩

theorem QuietFrame.trans {s t u : State} (h : QuietFrame s t) (k : QuietFrame t u) : QuietFrame s u :=
  ⟨h.toBlockFrame.trans k.toBlockFrame, k.xc.trans h.xc⟩

theorem RowEffect.after_quiet {s t u : State} (k : RowEffect t u) (h : QuietFrame s t) : RowEffect s u :=
  ⟨h.toBlockFrame.trans k.toBlockFrame, h.xc ▸ k.move⟩

theorem ExchangeFrame.blockFrame {s t : State} (h : ExchangeFrame s t) : BlockFrame s t :=
  ⟨h.cfg, h.connOpen, h.rb, h.inbox⟩

theorem emit_quiet (e : OutEvent) (s : State) : QuietFrame s (emit e s) := ⟨⟨rfl, rfl, rfl, rfl⟩, rfl⟩

theorem raise_quiet (c : ErrorClass) (d : DiagInfo) (s : State) : QuietFrame s (raise c d s) := emit_quiet _ s

theorem display_quiet (u : DisplayUpdate) (s : State) : QuietFrame s (display u s) := ⟨⟨rfl, rfl, rfl, rfl⟩, rfl⟩

theorem returnValue_quiet (v : RetVal) (s : State) : QuietFrame s (returnValue v s) :=
  ⟨⟨rfl, rfl, rfl, rfl⟩, rfl⟩

theorem sendAck_quiet (command : Byte) (payload : Bytes) (s : State) :
    QuietFrame s (sendAck command payload s).2 :=
  ⟨(sendAck_frame command payload s).1.blockFrame, (sendAck_frame command payload s).2⟩

theorem showLight_quiet (code : Byte) (s : State) : QuietFrame s (showLight code s) := by
  rcases showLight_cases code s with ⟨c, _, h⟩ | ⟨_, h⟩
  · rw [h]
    exact display_quiet _ s
  · rw [h]
    exact raise_quiet _ _ s

theorem showTelemetry_quiet (t : Telemetry) (s : State) : QuietFrame s (showTelemetry t s) :=
  (display_quiet (.status t.status) s).trans <|
    (display_quiet (.speed t.speed) _).trans <|
      (display_quiet (.voltage t.voltage) _).trans <|
        (display_quiet (.temperature t.temperature) _).trans <|
          (display_quiet (.power t.power) _).trans (showLight_quiet t.status _)

theorem ctrlTelemetryAfter_quiet (s : State) : QuietFrame s (ctrlTelemetryAfter s) := by
  have hack := sendAck_quiet Command.telemetry.code (telemetryPayload (synTelemetry s.cfg)) s
  unfold ctrlTelemetryAfter
  split
  case h_1 t heq =>
    rw [heq] at hack
    exact hack.trans (showLight_quiet _ t)
  case h_2 t heq =>
    rw [heq] at hack
    exact hack

/-- CONN.SEND acts on the output and the transport's answers only (R132). -/
theorem sendAfter_frame (command : Byte) (payload : Bytes) (s : State) :
    ExchangeFrame s (sendAfter command payload s) ∧ (sendAfter command payload s).xc = s.xc := by
  rcases write_cases (encodeFrame command payload) s with ⟨_, hw⟩ | ⟨_, hw⟩
  · cases hr : nextAnswer s <;> simp only [sendAfter, hw, hr] <;> exact ⟨⟨rfl, rfl, rfl, rfl, rfl, rfl⟩, rfl⟩
  · simp only [sendAfter, hw]
    exact ⟨⟨rfl, rfl, rfl, rfl, rfl, rfl⟩, rfl⟩

theorem execConnSend_frame {command : Byte} {payload : Bytes} {s t : State}
    (h : execConnSend command payload s = .next t) : ExchangeFrame s t ∧ t.xc = s.xc := by
  unfold execConnSend at h
  split at h
  · cases h
    exact ⟨⟨rfl, rfl, rfl, rfl, rfl, rfl⟩, rfl⟩
  · cases h
    exact sendAfter_frame command payload s

theorem execCodecDecode_next {raw : Bytes} {s t : State} (h : execCodecDecode raw s = .next t) :
    ∃ v, t = returnValue v s := by
  unfold execCodecDecode at h
  split at h <;> cases h <;> exact ⟨_, rfl⟩

theorem execRsmFeed_next {chunk : Bytes} {s t : State} (h : execRsmFeed chunk s = .next t) :
    t = returnValue (.candidates (feed s.rb chunk).1) { s with rb := (feed s.rb chunk).2 } := by
  unfold execRsmFeed at h
  split at h
  · cases h
  · cases h
    rfl

theorem execMotorGear_next {payload : Bytes} {s t : State} (h : execMotorGear payload s = .next t) :
    ∃ a b, t = route ⟨Command.gear.code, payload⟩ (display (.gear a b) s) := by
  unfold execMotorGear at h
  split at h
  · cases h
    exact ⟨_, _, rfl⟩
  · cases h

theorem execMotorTelemetry_effect {payload : Bytes} {s t : State} (h : execMotorTelemetry payload s = .next t) :
    RowEffect s t := by
  unfold execMotorTelemetry at h
  split at h
  · cases h
    exact (raise_quiet _ _ s).rowEffect
  case h_2 v _ =>
    cases h
    exact RowEffect.after_quiet ⟨(route_frame _ _).blockFrame, route_move _ _⟩ (showTelemetry_quiet v s)

theorem execXchgResponse_next {f : Frame} {s t : State} (h : execXchgResponse f s = .next t) :
    ∃ st, t = resolveStep st f s := by
  unfold execXchgResponse at h
  split at h
  · cases h
  · split at h
    · cases h
      exact ⟨_, rfl⟩
    · cases h

theorem execXchgTimeout_next {s t : State} (h : execXchgTimeout s = .next t) : t = timeOutStep s := by
  unfold execXchgTimeout at h
  split at h
  · cases h
    rfl
  · cases h

/-- Everything XCHG.START can do when it answers a next state: its preconditions (R126) held and its body ran. -/
theorem execXchgStart_next {steps : List ExchangeStep} {s t : State} (h : execXchgStart steps s = .next t) :
    s.cfg.ctx = .motor ∧ tooManySteps s.cfg steps = false ∧ (∀ st ∈ steps, 1 ≤ st.timeout) ∧
      ∃ first rest, steps = first :: rest ∧ t = startExchange first steps s := by
  unfold execXchgStart at h
  split at h
  · cases h
  · cases h
  case h_3 first rest hctx =>
    split at h
    · cases h
    case isFalse hmany =>
      split at h
      · cases h
      case isFalse hok =>
        cases h
        refine ⟨hctx, by simpa using hmany, ?_, first, rest, rfl, rfl⟩
        simpa [ExchangeStep.ok, Nat.one_le_iff_ne_zero] using hok

theorem execConnOpen_cases (portName : Bytes) (baudRate : Nat) {result : IoResult} {s t : State}
    (h : execConnOpen portName baudRate result s = .next t) :
    QuietFrame s t ∧ t.ds = s.ds ∨ s.connOpen = false ∧ t = { s with connOpen := true, rb := [] } := by
  cases h
  cases ho : s.connOpen with
  | true => exact .inl (by simp only [openAfter, ho]; exact ⟨emit_quiet _ s, rfl⟩)
  | false =>
    cases result with
    | fail => exact .inl (by simp only [openAfter, ho]; exact ⟨emit_quiet _ s, rfl⟩)
    | ok => exact .inr ⟨rfl, by simp [openAfter, ho]⟩

theorem execConnClose_cases {s t : State} (h : execConnClose s = .next t) :
    t = s ∨ t = { cancelExchange s with rb := [], connOpen := false } := by
  unfold execConnClose at h
  split at h
  · exact .inr (by cases h; rfl)
  · exact .inl (by cases h; rfl)

/-- Everything RX can do when it answers a next state (R135, R138). -/
theorem execRx_cases {chunk : Bytes} {s t : State} (h : execRx chunk s = .next t) :
    t = s ∨ s.connOpen = true ∧ overCap s chunk = false ∧
      processAll (feed s.rb chunk).1 { s with rb := (feed s.rb chunk).2 } = .next t := by
  unfold execRx at h
  split at h
  · exact .inl (by cases h; rfl)
  case isFalse ho =>
    split at h
    · cases h
    case isFalse hcap => exact .inr ⟨by simpa using ho, by simpa using hcap, h⟩

/-! ### What the instructions can do, by class -/

/-- The instructions that R21 lets write none of the connection, the buffer and the exchange record. -/
theorem exec_quiet {i : Instr} {s t : State} (h : exec i s = .next t) (hopen : i.writesOpen = false)
    (hrb : i.writesRb = false) (hxc : i.writesXc = false) : QuietFrame s t := by
  cases i with
  | ctrlStop p | ctrlRun p | ctrlSetSpeed p | ctrlGear p | ctrlVersion p =>
    cases h
    exact sendAck_quiet _ _ s
  | ctrlTelemetry p =>
    cases h
    exact ctrlTelemetryAfter_quiet s
  | connSend command payload =>
    obtain ⟨hframe, hx⟩ := execConnSend_frame h
    exact ⟨hframe.blockFrame, hx⟩
  | cksumCompute b | codecEncode c p =>
    cases h
    exact returnValue_quiet _ s
  | codecDecode raw =>
    obtain ⟨v, rfl⟩ := execCodecDecode_next h
    exact returnValue_quiet v s
  | reset _ | connOpen _ _ _ | connClose => cases hopen
  | rx _ | rsmFeed _ => cases hrb
  | motorStop _ | motorRun _ | motorSetSpeed _ | motorGear _ | motorVersion _ | motorTelemetry _ | xchgStart _
  | tick | dispDispatch _ | xchgResponse _ | xchgTimeout | xchgCancel => cases hxc

/-- A FRAME row, of either context (R92 to R103). -/
theorem exec_row_effect {i : Instr} {s t : State} (h : exec i s = .next t) (hrow : i.context.isSome = true) :
    RowEffect s t := by
  cases i with
  | ctrlStop p | ctrlRun p | ctrlSetSpeed p | ctrlGear p | ctrlVersion p | ctrlTelemetry p =>
    exact (exec_quiet h rfl rfl rfl).rowEffect
  | motorStop p | motorRun p | motorSetSpeed p =>
    cases h
    exact ⟨(route_frame _ s).blockFrame, route_move _ s⟩
  | motorGear p =>
    obtain ⟨a, b, rfl⟩ := execMotorGear_next h
    exact RowEffect.after_quiet ⟨(route_frame _ _).blockFrame, route_move _ _⟩ (display_quiet _ s)
  | motorVersion p =>
    cases h
    exact RowEffect.after_quiet ⟨(route_frame _ _).blockFrame, route_move _ _⟩ (display_quiet _ s)
  | motorTelemetry p => exact execMotorTelemetry_effect h
  | _ => cases hrow

theorem frameRow_isRow (ctx : Ctx) (c : Command) (p : Bytes) : (frameRow ctx c p).context.isSome = true := by
  cases ctx <;> cases c <;> rfl

theorem execDispDispatch_effect {f : Frame} {s t : State} (h : execDispDispatch f s = .next t) : RowEffect s t := by
  cases hc : Command.ofByte f.command with
  | none =>
    rw [execDispDispatch_of_unassigned s hc] at h
    cases h
    exact (raise_quiet _ _ s).rowEffect
  | some c =>
    rw [execDispDispatch_eq_exec_frameRow s hc] at h
    exact exec_row_effect h (frameRow_isRow _ c _)

theorem process_effect {raw : Bytes} {s t : State} (h : process raw s = .next t) : RowEffect s t := by
  cases hd : decodeFrame raw with
  | error e =>
    rw [process_of_error s hd] at h
    cases h
    exact (raise_quiet _ _ s).rowEffect
  | ok f =>
    rw [process_of_ok s hd] at h
    exact (execDispDispatch_effect h).after_quiet (emit_quiet _ s)

/-- The instructions that R21 lets write neither the connection nor the buffer, XCHG.START apart. -/
theorem exec_effect {i : Instr} {s t : State} (h : exec i s = .next t) (hopen : i.writesOpen = false)
    (hrb : i.writesRb = false) (hstart : i.isStart = false) : RowEffect s t := by
  cases i with
  | ctrlStop _ | ctrlRun _ | ctrlSetSpeed _ | ctrlGear _ | ctrlVersion _ | ctrlTelemetry _ | motorStop _
  | motorRun _ | motorSetSpeed _ | motorGear _ | motorVersion _ | motorTelemetry _ => exact exec_row_effect h rfl
  | connSend _ _ | cksumCompute _ | codecEncode _ _ | codecDecode _ => exact (exec_quiet h rfl rfl rfl).rowEffect
  | tick =>
    cases h
    exact ⟨(tickAfter_frame s).blockFrame, tickAfter_move s⟩
  | dispDispatch f => exact execDispDispatch_effect h
  | xchgResponse f =>
    obtain ⟨st, rfl⟩ := execXchgResponse_next h
    exact ⟨(resolveStep_frame st f s).blockFrame, resolveStep_move st f s⟩
  | xchgTimeout =>
    rw [execXchgTimeout_next h]
    exact ⟨(timeOutStep_frame s).blockFrame, timeOutStep_move s⟩
  | xchgCancel =>
    cases h
    exact ⟨⟨rfl, rfl, rfl, rfl⟩, .ended⟩
  | reset _ | connOpen _ _ _ | connClose => cases hopen
  | rx _ | rsmFeed _ => cases hrb
  | xchgStart _ => cases hstart

theorem exec_ds {i : Instr} {s t : State} (h : exec i s = .next t) (hds : i.writesDs = false) : t.ds = s.ds := by
  cases i with
  | ctrlStop p | ctrlRun p | ctrlSetSpeed p | ctrlGear p | ctrlVersion p =>
    cases h
    exact (sendAck_frame _ _ s).1.ds
  | motorStop p | motorRun p | motorSetSpeed p =>
    cases h
    exact (route_frame _ s).ds
  | connOpen portName baudRate result =>
    rcases execConnOpen_cases portName baudRate h with ⟨_, hd⟩ | ⟨_, rfl⟩
    · exact hd
    · rfl
  | connClose => rcases execConnClose_cases h with rfl | rfl <;> rfl
  | connSend c p => exact (execConnSend_frame h).1.ds
  | xchgStart steps =>
    obtain ⟨_, _, _, first, _, _, rfl⟩ := execXchgStart_next h
    exact (startExchange_frame first steps s).ds
  | tick =>
    cases h
    exact (tickAfter_frame s).ds
  | codecDecode raw =>
    obtain ⟨v, rfl⟩ := execCodecDecode_next h
    rfl
  | rsmFeed chunk =>
    rw [execRsmFeed_next h]
    rfl
  | xchgResponse f =>
    obtain ⟨st, rfl⟩ := execXchgResponse_next h
    exact (resolveStep_frame st f s).ds
  | xchgTimeout =>
    rw [execXchgTimeout_next h]
    exact (timeOutStep_frame s).ds
  | cksumCompute _ | codecEncode _ _ | xchgCancel =>
    cases h
    rfl
  | reset _ | rx _ | dispDispatch _ | ctrlTelemetry _ | motorGear _ | motorVersion _ | motorTelemetry _ =>
    cases hds

theorem processAll_blockFrame {cands : List Bytes} {s t : State} (h : processAll cands s = .next t) :
    BlockFrame s t :=
  processAll_induction (P := BlockFrame s) (fun _ _ _ hp hu => hu.trans (process_effect hp).toBlockFrame) h
    ⟨rfl, rfl, rfl, rfl⟩

/-- Settles O53: RESET, the two connection operations, RX, RSM.FEED and XCHG.START one by one, every other
instruction by the lemmas of its class. -/
theorem stateIsTouchedByItsOperationsOnly : Obligations.StateIsTouchedByItsOperationsOnly := by
  intro i s t h
  have hds := exec_ds h
  cases i with
  | reset c =>
    cases h
    exact ⟨nofun, nofun, nofun, nofun, hds, rfl⟩
  | connOpen portName baudRate result =>
    rcases execConnOpen_cases portName baudRate h with ⟨hq, _⟩ | ⟨_, rfl⟩
    · exact ⟨fun _ => hq.cfg, nofun, nofun, fun _ => hq.xc, hds, hq.inbox⟩
    · exact ⟨fun _ => rfl, nofun, nofun, fun _ => rfl, hds, rfl⟩
  | connClose =>
    rcases execConnClose_cases h with rfl | rfl <;> exact ⟨fun _ => rfl, nofun, nofun, nofun, hds, rfl⟩
  | rx chunk =>
    rcases execRx_cases h with rfl | ⟨_, _, hp⟩
    · exact ⟨fun _ => rfl, fun _ => rfl, nofun, nofun, hds, rfl⟩
    · have hf := processAll_blockFrame hp
      exact ⟨fun _ => hf.cfg, fun _ => hf.connOpen, nofun, nofun, hds, hf.inbox⟩
  | rsmFeed chunk =>
    rw [execRsmFeed_next h]
    exact ⟨fun _ => rfl, fun _ => rfl, nofun, fun _ => rfl, fun _ => rfl, rfl⟩
  | xchgStart steps =>
    obtain ⟨_, _, _, first, _, _, rfl⟩ := execXchgStart_next h
    have hf := (startExchange_frame first steps s).blockFrame
    exact ⟨fun _ => hf.cfg, fun _ => hf.connOpen, fun _ => hf.rb, nofun, hds, hf.inbox⟩
  | _ =>
    have hf := (exec_effect h rfl rfl rfl).toBlockFrame
    exact ⟨fun _ => hf.cfg, fun _ => hf.connOpen, fun _ => hf.rb, fun hxc => (exec_quiet h rfl rfl hxc).xc, hds,
      hf.inbox⟩

/-! ### The cursor -/

/-- An exchange active in `y` was active in `x`, with the same table and a cursor not greater (R16, R46). -/
def XcForward (x y : Xc) : Prop :=
  y.active = true → x.active = true ∧ y.steps = x.steps ∧ x.cursor ≤ y.cursor

theorem XcForward.refl (x : Xc) : XcForward x x := fun h => ⟨h, rfl, le_rfl⟩

theorem XcForward.trans {x y z : Xc} (h : XcForward x y) (k : XcForward y z) : XcForward x z := by
  intro hz
  obtain ⟨hy, hzs, hzc⟩ := k hz
  obtain ⟨hx, hys, hyc⟩ := h hy
  exact ⟨hx, hzs.trans hys, hyc.trans hzc⟩

theorem XcMove.forward {x y : Xc} (h : XcMove x y) : XcForward x y := by
  cases h with
  | stay | countDown => exact fun hx => ⟨hx, rfl, le_rfl⟩
  | stepOn => exact fun hx => ⟨hx, rfl, Nat.le_succ _⟩
  | ended => exact nofun

theorem XcMove.cursor_le {x y : Xc} (h : XcMove x y) : y.cursor ≤ x.cursor + 1 := by
  cases h with
  | stay | countDown => exact Nat.le_succ _
  | stepOn => exact le_rfl
  | ended => exact Nat.zero_le _

/-- Every instruction but XCHG.START and RX makes one move of the exchange record. -/
theorem exec_move {i : Instr} {s t : State} (h : exec i s = .next t) (hstart : i.isStart = false)
    (hrx : i.isRx = false) : XcMove s.xc t.xc := by
  cases i with
  | reset c =>
    cases h
    exact .ended
  | connOpen portName baudRate result =>
    rcases execConnOpen_cases portName baudRate h with ⟨hq, _⟩ | ⟨_, rfl⟩
    · exact hq.rowEffect.move
    · exact .stay
  | connClose =>
    rcases execConnClose_cases h with rfl | rfl
    · exact .stay
    · exact .ended
  | rsmFeed chunk =>
    rw [execRsmFeed_next h]
    exact .stay
  | rx _ => cases hrx
  | xchgStart _ => cases hstart
  | _ => exact (exec_effect h rfl rfl rfl).move

theorem execRx_forward {chunk : Bytes} {s t : State} (h : execRx chunk s = .next t) : XcForward s.xc t.xc := by
  rcases execRx_cases h with rfl | ⟨_, _, hp⟩
  · exact .refl _
  · exact processAll_induction (P := fun u => XcForward s.xc u.xc)
      (fun _ _ _ h1 hu => hu.trans (process_effect h1).move.forward) hp (.refl _)

/-- Settles O56: RX makes one move per candidate, every other instruction but XCHG.START makes one. -/
theorem cursorNeverMovesBack : Obligations.CursorNeverMovesBack := by
  intro i s t h hstart hactive
  cases hrx : i.isRx with
  | false =>
    have hmove := exec_move h hstart hrx
    obtain ⟨ha, hs, hc⟩ := hmove.forward hactive
    exact ⟨ha, hs, hc, fun _ => hmove.cursor_le⟩
  | true =>
    cases i with
    | rx chunk =>
      obtain ⟨ha, hs, hc⟩ := execRx_forward h hactive
      exact ⟨ha, hs, hc, nofun⟩
    | _ => cases hrx

/-! ### The buffer after a feed -/

/-- What one pass of R77 leaves of the buffer: it stops on a short buffer, without a header, with a lone 0x10 or
with a header that awaits its 0x03, or the passes go on behind a 0x03. -/
theorem passes_rest_cases (fuel : Nat) (rb : Bytes) :
    (rb.length < 4 ∧ (passes (fuel + 1) rb).2 = rb) ∨
    (4 ≤ rb.length ∧ ((passes (fuel + 1) rb).2 = [] ∨ (passes (fuel + 1) rb).2 = [0x10])) ∨
    (∃ hb, scanHeader rb = .found hb ∧ find hb 0x03 1 = none ∧ (passes (fuel + 1) rb).2 = hb) ∨
    (∃ hb e, scanHeader rb = .found hb ∧ find hb 0x03 1 = some e ∧
      (passes (fuel + 1) rb).2 = (passes fuel (hb.drop (e + 1))).2) := by
  by_cases h4 : rb.length < Config.minCandidateLen
  · exact .inl ⟨h4, by simp [passes, h4]⟩
  · cases hs : scanHeader rb with
    | absent => exact .inr (.inl ⟨Nat.le_of_not_lt h4, .inl (by simp [passes, h4, hs])⟩)
    | lone => exact .inr (.inl ⟨Nat.le_of_not_lt h4, .inr (by simp [passes, h4, hs, Config.headerByte])⟩)
    | found hb =>
      cases he : find hb Config.trailerByte 1 with
      | none => exact .inr (.inr (.inl ⟨hb, rfl, he, by simp [passes, h4, hs, he]⟩))
      | some e =>
        refine .inr (.inr (.inr ⟨hb, e, rfl, he, ?_⟩))
        simp only [passes, h4, hs, he, if_false]
        split <;> rfl

/-- What stands behind a candidate is shorter than the buffer was. -/
theorem drop_found_length_lt {rb hb : Bytes} (h : scanHeader rb = .found hb) (e : Nat) :
    (hb.drop (e + 1)).length < rb.length := by
  obtain ⟨hsuffix, x, rfl⟩ := scanHeader_found h
  have hle := hsuffix.length_le
  simp only [List.length_drop, List.length_cons] at hle ⊢
  omega

theorem rbSettled_of_awaiting {rb hb : Bytes} (hs : scanHeader rb = .found hb) (hf : find hb 0x03 1 = none) :
    RbSettled hb := by
  obtain ⟨_, x, rfl⟩ := scanHeader_found hs
  exact .inr ⟨rfl, find_eq_none_iff.mp hf⟩

theorem passes_settles {fuel : Nat} {rb : Bytes} (hfuel : rb.length < fuel) : RbSettled (passes fuel rb).2 := by
  induction fuel generalizing rb with
  | zero => omega
  | succ n ih =>
    rcases passes_rest_cases n rb with ⟨h4, h⟩ | ⟨_, h | h⟩ | ⟨hb, hs, hf, h⟩ | ⟨hb, e, hs, _, h⟩
    · exact .inl (by rwa [h])
    · exact .inl (by simp [h])
    · exact .inl (by simp [h])
    · exact h ▸ rbSettled_of_awaiting hs hf
    · have hlt := drop_found_length_lt hs e
      exact h ▸ ih (by omega)

theorem passes_length_le (fuel : Nat) (rb : Bytes) : (passes fuel rb).2.length ≤ rb.length := by
  induction fuel generalizing rb with
  | zero => exact le_rfl
  | succ n ih =>
    rcases passes_rest_cases n rb with ⟨_, h⟩ | ⟨h4, h | h⟩ | ⟨hb, hs, _, h⟩ | ⟨hb, e, hs, _, h⟩
    · rw [h]
    · simp [h]
    · simp only [h, List.length_singleton]
      omega
    · exact h ▸ (scanHeader_found hs).1.length_le
    · exact h ▸ (ih _).trans (drop_found_length_lt hs e).le

theorem feed_settles (rb chunk : Bytes) : RbSettled (feed rb chunk).2 := passes_settles (Nat.lt_succ_self _)

theorem feed_length_le (rb chunk : Bytes) : (feed rb chunk).2.length ≤ rb.length + chunk.length :=
  List.length_append (as := rb) ▸ passes_length_le _ _

/-! ### The invariant between events -/

theorem overCap_eq_false_iff {s : State} {chunk : Bytes} :
    overCap s chunk = false ↔ ∀ cap, s.cfg.rbCap = some cap → s.rb.length + chunk.length ≤ cap := by
  cases h : s.cfg.rbCap <;> simp [overCap, h]

theorem tooManySteps_eq_false_iff {c : Cfg} {steps : List ExchangeStep} :
    tooManySteps c steps = false ↔ ∀ m, c.maxSteps = some m → steps.length ≤ m := by
  cases h : c.maxSteps <;> simp [tooManySteps, h]

theorem xcSound_idle (c : Cfg) : XcSound c Xc.idle := .inl ⟨rfl, rfl, rfl, rfl, rfl⟩

theorem XcMove.sound {c : Cfg} {x y : Xc} (h : XcMove x y) (hx : XcSound c x) : XcSound c y := by
  cases h with
  | stay => exact hx
  | countDown harmed hrem =>
    rcases hx with ⟨_, _, _, hoff, _⟩ | ⟨ha, harm, hmax, hok, st, hst, _, hle⟩
    · exact absurd harmed (by simp [hoff])
    · exact .inr ⟨ha, harm, hmax, hok, st, hst, Nat.le_sub_one_of_lt hrem, (Nat.sub_le _ 1).trans hle⟩
  | stepOn st hst =>
    rcases hx with ⟨_, hnil, _⟩ | ⟨ha, _, hmax, hok, _⟩
    · simp [hnil] at hst
    · exact .inr ⟨ha, rfl, hmax, hok, st, hst, hok st (List.mem_of_getElem? hst), le_rfl⟩
  | ended => exact xcSound_idle c

theorem xcSound_started {c : Cfg} {first : ExchangeStep} {rest : List ExchangeStep}
    (hmany : tooManySteps c (first :: rest) = false) (hok : ∀ st ∈ first :: rest, 1 ≤ st.timeout) :
    XcSound c ⟨true, first :: rest, 0, true, first.timeout⟩ :=
  .inr ⟨rfl, rfl, tooManySteps_eq_false_iff.mp hmany, hok, first, rfl, hok first List.mem_cons_self, le_rfl⟩

/-- A block with nothing buffered and no exchange is sound whatever its configuration. -/
theorem blockSound_of_idle {s : State} (hrb : s.rb = []) (hxc : s.xc = Xc.idle) :
    BlockSound s where
  rbSettled := .inl (by simp [hrb])
  withinCap := fun cap _ => by simp [hrb]
  xcSound := hxc ▸ xcSound_idle s.cfg
  xcPlaced := fun ha => by simp [hxc, Xc.idle] at ha
  closedEmpty := fun _ => hrb

/-- The invariant speaks of the configuration, the connection, the buffer and the exchange record. -/
theorem BlockSound.congr {s t : State} (hs : BlockSound s) (hcfg : t.cfg = s.cfg) (hopen : t.connOpen = s.connOpen)
    (hrb : t.rb = s.rb) (hsound : XcSound s.cfg t.xc)
    (hplaced : t.xc.active = true → s.connOpen = true ∧ s.cfg.ctx = .motor) : BlockSound t where
  rbSettled := hrb ▸ hs.rbSettled
  withinCap := by simpa only [WithinCap, hcfg, hrb] using hs.withinCap
  xcSound := hcfg ▸ hsound
  xcPlaced := by simpa only [XcPlaced, hcfg, hopen] using hplaced
  closedEmpty := by simpa only [ClosedEmpty, hopen, hrb] using hs.closedEmpty

theorem RowEffect.sound {s t : State} (h : RowEffect s t) (hs : BlockSound s) : BlockSound t :=
  hs.congr h.cfg h.connOpen h.rb (h.move.sound hs.xcSound) fun ha => hs.xcPlaced (h.move.forward ha).1

theorem xc_inactive_of_closed {s : State} (hs : BlockSound s) (hopen : s.connOpen = false) : s.xc.active = false := by
  cases ha : s.xc.active with
  | false => rfl
  | true => exact absurd (hs.xcPlaced ha).1 (by simp [hopen])

theorem execConnOpen_sound (portName : Bytes) (baudRate : Nat) {result : IoResult} {s t : State}
    (h : execConnOpen portName baudRate result s = .next t) (hs : BlockSound s) : BlockSound t := by
  rcases execConnOpen_cases portName baudRate h with ⟨hq, _⟩ | ⟨hopen, rfl⟩
  · exact hq.rowEffect.sound hs
  · have hidle := xc_inactive_of_closed hs hopen
    exact
      { rbSettled := .inl (by simp)
        withinCap := fun cap _ => Nat.zero_le cap
        xcSound := hs.xcSound
        xcPlaced := fun ha => absurd ha (by simp [hidle])
        closedEmpty := fun _ => rfl }

theorem execConnClose_sound {s t : State} (h : execConnClose s = .next t) (hs : BlockSound s) : BlockSound t := by
  rcases execConnClose_cases h with rfl | rfl
  · exact hs
  · exact blockSound_of_idle rfl rfl

/-- The state between the feed and the candidates of an RX is sound already. -/
theorem fed_sound {chunk : Bytes} {s : State} (hs : BlockSound s) (hopen : s.connOpen = true)
    (hcap : overCap s chunk = false) : BlockSound { s with rb := (feed s.rb chunk).2 } where
  rbSettled := feed_settles s.rb chunk
  withinCap := fun cap hc => (feed_length_le s.rb chunk).trans (overCap_eq_false_iff.mp hcap cap hc)
  xcSound := hs.xcSound
  xcPlaced := hs.xcPlaced
  closedEmpty := fun hclosed => absurd hopen (by simpa using hclosed)

theorem execRx_sound {chunk : Bytes} {s t : State} (h : execRx chunk s = .next t) (hs : BlockSound s) :
    BlockSound t := by
  rcases execRx_cases h with rfl | ⟨hopen, hcap, hp⟩
  · exact hs
  · exact processAll_induction (fun _ _ _ h1 hu => (process_effect h1).sound hu) hp (fed_sound hs hopen hcap)

theorem execXchgStart_sound {steps : List ExchangeStep} {s t : State} (h : execXchgStart steps s = .next t)
    (hs : BlockSound s) : BlockSound t := by
  obtain ⟨hctx, hmany, hok, first, rest, rfl, rfl⟩ := execXchgStart_next h
  have hf := (startExchange_frame first (first :: rest) s).blockFrame
  rcases startExchange_xc first (first :: rest) s with hmove | ⟨hopen, hx⟩
  · exact RowEffect.sound ⟨hf, hmove⟩ hs
  · exact hs.congr hf.cfg hf.connOpen hf.rb (hx ▸ xcSound_started hmany hok) fun _ => ⟨hopen, hctx⟩

/-- Every input event keeps the invariant; RSM.FEED, which is none, could fill the buffer of a closed
connection. -/
theorem exec_sound {i : Instr} {s t : State} (h : exec i s = .next t) (hi : i.isInput = true)
    (hs : BlockSound s) : BlockSound t := by
  cases i with
  | reset c =>
    cases h
    exact blockSound_of_idle rfl rfl
  | connOpen portName baudRate result => exact execConnOpen_sound portName baudRate h hs
  | connClose => exact execConnClose_sound h hs
  | rx chunk => exact execRx_sound h hs
  | xchgStart steps => exact execXchgStart_sound h hs
  | connSend _ _ | tick => exact (exec_effect h rfl rfl rfl).sound hs
  | _ => cases hi

/-! ### Taking an input event -/

/-- The scan of an instant that holds a word always takes one. -/
theorem pickFirst_eq_none {words : List InWord} (h : pickFirst words = none) : words = [] := by
  cases words with
  | nil => rfl
  | cons w ws =>
    simp only [pickFirst] at h
    split at h
    · cases h
    · split at h <;> cases h

/-- The word taken and the others are the instant's words. -/
theorem pickFirst_perm {words others : List InWord} {w : InWord} (h : pickFirst words = some (w, others)) :
    (w :: others).Perm words := by
  induction words generalizing w others with
  | nil => cases h
  | cons v vs ih =>
    simp only [pickFirst] at h
    split at h
    case h_1 hnone =>
      cases h
      rw [pickFirst_eq_none hnone]
    case h_2 u rest hsome =>
      split at h
      · cases h
        exact .refl _
      · cases h
        exact (List.Perm.swap v w rest).trans ((ih hsome).cons v)

/-- A fetched word was pending in some instant, and what remains of an instant was pending there. -/
theorem fetchFrom_mem {inbox later : List (List InWord)} {w : InWord} (h : fetchFrom inbox = some (w, later)) :
    (∃ batch ∈ inbox, w ∈ batch) ∧ ∀ left ∈ later, ∃ batch ∈ inbox, left ⊆ batch := by
  induction inbox with
  | nil => cases h
  | cons batch rest ih =>
    have hrest : ∀ left ∈ rest, ∃ b ∈ batch :: rest, left ⊆ b := fun left hl =>
      ⟨left, List.mem_cons_of_mem _ hl, List.Subset.refl _⟩
    simp only [fetchFrom] at h
    split at h
    · obtain ⟨⟨b, hb, hw⟩, hleft⟩ := ih h
      refine ⟨⟨b, List.mem_cons_of_mem _ hb, hw⟩, fun left hl => ?_⟩
      obtain ⟨b', hb', hsub⟩ := hleft left hl
      exact ⟨b', List.mem_cons_of_mem _ hb', hsub⟩
    case h_2 v hp =>
      cases h
      exact ⟨⟨batch, List.mem_cons_self, (pickFirst_perm hp).subset List.mem_cons_self⟩, hrest⟩
    case h_3 v u others hp =>
      cases h
      have hsub := (pickFirst_perm hp).subset
      refine ⟨⟨batch, List.mem_cons_self, hsub List.mem_cons_self⟩, fun left hl => ?_⟩
      rcases List.mem_cons.mp hl with rfl | hl
      · exact ⟨batch, List.mem_cons_self, fun x hx => hsub (List.mem_cons_of_mem _ hx)⟩
      · exact hrest left hl

theorem fetch_inputsOnly {s u : State} {w : InWord} (hs : InputsOnly s) (h : fetch s = some (w, u)) :
    w.isInput = true ∧ InputsOnly u := by
  obtain ⟨⟨v, later⟩, hf, heq⟩ := Option.map_eq_some_iff.mp h
  obtain ⟨rfl, rfl⟩ := Prod.mk.inj heq
  obtain ⟨⟨batch, hb, hw⟩, hleft⟩ := fetchFrom_mem hf
  refine ⟨hs batch hb _ hw, fun left hl x hx => ?_⟩
  obtain ⟨b, hb', hsub⟩ := hleft left hl
  exact hs b hb' x (hsub hx)

/-- The codes 0x00 to 0x06 decode to input events only (R62). -/
theorem decodeEvent_isInput {code : Byte} {args : EventArgs} {i : Instr} (h : decodeEvent code args = .ok i)
    (hcode : code.toNat ≤ 6) : i.isInput = true := by
  have hcases : code = 0 ∨ code = 1 ∨ code = 2 ∨ code = 3 ∨ code = 4 ∨ code = 5 ∨ code = 6 := by bv_omega
  rcases hcases with rfl | rfl | rfl | rfl | rfl | rfl | rfl <;> cases args <;> cases h <;> rfl

theorem runWord_sound {w : InWord} {s t : State} (h : runWord w s = .next t) (hw : w.isInput = true)
    (hs : BlockSound s) : BlockSound t ∧ t.inbox = s.inbox := by
  cases w with
  | frame raw => cases hw
  | event code args =>
    cases hd : decodeEvent code args with
    | error e => simp [runWord, hd] at h
    | ok i =>
      rw [runWord_event s hd] at h
      obtain ⟨_, _, _, _, _, hinbox⟩ := stateIsTouchedByItsOperationsOnly i s t h
      exact ⟨exec_sound h (decodeEvent_isInput hd (by simpa [InWord.isInput] using hw)) hs, hinbox⟩

/-- Settles O51: taking a word changes the pending inputs only, and what it decodes to is an input event, which
keeps the invariant. -/
theorem stepKeepsTheBlockSound : Obligations.StepKeepsTheBlockSound := by
  intro s t hs hin h
  cases hf : fetch s with
  | none =>
    rw [step_of_fetch_none hf] at h
    cases h
    exact ⟨hs, hin⟩
  | some p =>
    obtain ⟨w, u⟩ := p
    rw [step_of_fetch_some hf] at h
    obtain ⟨hw, hu⟩ := fetch_inputsOnly hin hf
    obtain ⟨later, rfl⟩ := fetch_changes_inbox_only hf
    have htaken : BlockSound { s with inbox := later } := hs.congr rfl rfl rfl hs.xcSound hs.xcPlaced
    obtain ⟨ht, hinbox⟩ := runWord_sound h hw htaken
    exact ⟨ht, by rw [InputsOnly, hinbox]; exact hu⟩

/-! ### The reset state -/

/-- Settles O49: the fields of `State.reset`, with `Xc.idle` and `Ds.blank` written out. -/
theorem resetStateValues : Obligations.ResetStateValues := ⟨rfl, rfl, rfl, rfl, rfl⟩

/-- Settles O50: the reset state has an empty buffer and an idle record, and nothing is pending. -/
theorem resetIsSound : Obligations.ResetIsSound := ⟨blockSound_of_idle rfl rfl, nofun⟩

end Sys2Proof.Machine

/-! The encoding (R60, R62): CODEC.DECODE of a wire image, the FRAME rows and the EVENT rows, their round trips;
then the composite operation START_MOTOR (R65). -/

namespace Sys2Proof

/-! ### CODEC.DECODE of a wire image -/

@[simp] theorem frameSpan_length (c : Byte) (p : Bytes) : (frameSpan c p).length = p.length + 3 := by
  simp [frameSpan, Config.header]

theorem encodeFrame_take_header (c : Byte) (p : Bytes) : (encodeFrame c p).take 2 = Config.header := by
  simp [encodeFrame_eq, Config.header]

theorem encodeFrame_drop_trailer (c : Byte) (p : Bytes) :
    (encodeFrame c p).drop ((encodeFrame c p).length - 2) = Config.trailer := by
  rw [encodeFrame_length]
  exact List.drop_left' (by simp)

/-- What precedes the checksum byte of a wire image is what the checksum was computed over (R68). -/
theorem encodeFrame_take_span (c : Byte) (p : Bytes) :
    (encodeFrame c p).take ((encodeFrame c p).length - 3) = frameSpan c p := by
  rw [encodeFrame_length, encodeFrame, List.append_assoc]
  exact List.take_left' (by simp)

theorem encodeFrame_checksum (c : Byte) (p : Bytes) :
    (encodeFrame c p)[(encodeFrame c p).length - 3]? = some (sum8 (frameSpan c p)) := by
  rw [encodeFrame_length, encodeFrame, List.append_assoc, List.getElem?_append_right (by simp)]
  simp

/-- The payload has at least 2 bytes because `MIN_FRAME_LEN` is 8 (R47); the other three checks pass by
construction. -/
theorem decodeFrame_encodeFrame (c : Byte) {p : Bytes} (hp : 2 ≤ p.length) :
    decodeFrame (encodeFrame c p) = .ok ⟨c, p⟩ := by
  have hlen : ¬ (encodeFrame c p).length < Config.minFrameLen := by
    rw [encodeFrame_length, Config.minFrameLen]
    omega
  have hcommand : (encodeFrame c p).getD 2 0 = c := by simp [encodeFrame_eq]
  have hpayload : (frameSpan c p).drop 3 = p := by simp [frameSpan, Config.header]
  rw [decodeFrame, if_neg hlen, if_neg (not_not.mpr (encodeFrame_take_header c p)),
    if_neg (not_not.mpr (encodeFrame_drop_trailer c p)), encodeFrame_take_span,
    if_neg (not_not.mpr (encodeFrame_checksum c p)), hcommand, hpayload]

/-! ### The FRAME rows and the EVENT rows -/

theorem Command.ofByte_code (cmd : Command) : Command.ofByte cmd.code = some cmd := by
  cases cmd <;> rfl

theorem encode_frameRow (ctx : Ctx) (cmd : Command) (p : Bytes) :
    encode (frameRow ctx cmd p) = .frame (encodeFrame cmd.code p) := by
  cases ctx <;> cases cmd <;> rfl

theorem frameRow_wellFormed (ctx : Ctx) (cmd : Command) (p : Bytes) :
    (frameRow ctx cmd p).wellFormed = payloadOk p := by
  cases ctx <;> cases cmd <;> rfl

/-- The instructions with a context are the twelve FRAME rows (R60). -/
theorem Instr.eq_frameRow_of_context {i : Instr} {ctx : Ctx} (h : i.context = some ctx) :
    ∃ cmd p, i = frameRow ctx cmd p := by
  cases i with
  | ctrlStop p | motorStop p => cases h; exact ⟨.stop, p, rfl⟩
  | ctrlRun p | motorRun p => cases h; exact ⟨.run, p, rfl⟩
  | ctrlSetSpeed p | motorSetSpeed p => cases h; exact ⟨.setSpeed, p, rfl⟩
  | ctrlGear p | motorGear p => cases h; exact ⟨.gear, p, rfl⟩
  | ctrlVersion p | motorVersion p => cases h; exact ⟨.version, p, rfl⟩
  | ctrlTelemetry p | motorTelemetry p => cases h; exact ⟨.telemetry, p, rfl⟩
  | _ => cases h

/-- The wire image of a table command decodes to the command's row in the context (R60). -/
theorem decode_encodeFrame (ctx : Ctx) (cmd : Command) {p : Bytes} (hp : 2 ≤ p.length) :
    decode ctx (.frame (encodeFrame cmd.code p)) = .ok (frameRow ctx cmd p) := by
  simp [decode, decodeFrameWord, decodeFrame_encodeFrame cmd.code hp, Command.ofByte_code]

/-- An EVENT row's word decodes to it whatever the context and its operands (R62). -/
theorem decode_encode_event (ctx : Ctx) {i : Instr} (h : i.context = none) : decode ctx (encode i) = .ok i := by
  cases i with
  | reset _ | connOpen _ _ _ | connClose | rx _ | connSend _ _ | xchgStart _ | tick | cksumCompute _
  | codecEncode _ _ | codecDecode _ | rsmFeed _ | dispDispatch _ | xchgResponse _ | xchgTimeout | xchgCancel => rfl
  | _ => cases h

/-- Settles O8: an instruction is an EVENT row, or the FRAME row of a command whose wire image CODEC.DECODE takes
apart again. -/
theorem decodeEncodeRoundTrip : Obligations.DecodeEncodeRoundTrip := by
  intro ctx i hwf hctx
  cases hrow : i.context with
  | none => exact decode_encode_event ctx hrow
  | some c =>
    obtain rfl := hctx c hrow
    obtain ⟨cmd, p, rfl⟩ := Instr.eq_frameRow_of_context hrow
    rw [frameRow_wellFormed] at hwf
    rw [encode_frameRow]
    exact decode_encodeFrame c cmd (of_decide_eq_true hwf)

/-! ### Words written out -/

/-- The set-speed frame of S1 is a wire image, with EE as its checksum (95_test_vectors.md, C1). -/
theorem setSpeedWord_eq_encodeFrame :
    ([0x10, 0x02, 0x82, 0x02, 0x58, 0xEE, 0x10, 0x03] : Bytes) = encodeFrame Command.setSpeed.code [0x02, 0x58] := by
  decide

/-- The telemetry frame of S2 is a wire image. -/
theorem telemetryWord_eq_encodeFrame :
    ([0x10, 0x02, 0x21, 0x0B, 0x00, 0x64, 0x00, 0xDC, 0x19, 0x00, 0x32, 0xC9, 0x10, 0x03] : Bytes) =
      encodeFrame Command.telemetry.code [0x0B, 0x00, 0x64, 0x00, 0xDC, 0x19, 0x00, 0x32] := by
  decide

/-- Settles O9: the first three words are wire images of table commands, the next two fail in CODEC.DECODE and in
the command table, and the last two are event codes. -/
theorem writtenOutWordsDecode : Obligations.WrittenOutWordsDecode := by
  refine ⟨?control, ?motor, ?telemetry, ?checksum, ?unassigned, ?tick, ?unlisted⟩
  case control =>
    rw [setSpeedWord_eq_encodeFrame]
    exact decode_encodeFrame .control .setSpeed (by decide)
  case motor =>
    rw [setSpeedWord_eq_encodeFrame]
    exact decode_encodeFrame .motor .setSpeed (by decide)
  case telemetry =>
    rw [telemetryWord_eq_encodeFrame]
    exact decode_encodeFrame .motor .telemetry (by decide)
  case checksum => exact Machine.decode_frame_of_error .control (by decide)
  case unassigned =>
    have hraw : decodeFrame [0x10, 0x02, 0x99, 0x00, 0x00, 0xAB, 0x10, 0x03] = .ok ⟨0x99, [0x00, 0x00]⟩ := by decide
    exact Machine.decode_frame_of_unassigned .motor hraw (Machine.ofByte_eq_none_of_unassigned (by decide))
  case tick => exact decode_encode_event .motor (i := .tick) rfl
  case unlisted => rfl

end Sys2Proof

namespace Sys2Proof.Machine

/-! ### START_MOTOR -/

/-- SEND_STEP on an open connection whose write succeeds (R113, R121). -/
theorem sendStep_of_ok {s : State} (st : ExchangeStep) (hopen : s.connOpen = true) (hans : nextAnswer s = .ok) :
    sendStep st s =
      { emit (.tx (encodeFrame st.request.command st.request.payload) .ok) (takeAnswer s) with
        xc := { s.xc with timerArmed := true, timerRem := st.timeout } } := by
  rcases sendStep_cases st s with ⟨_, _, h⟩ | ⟨_, hfail, _⟩ | ⟨hclosed, _⟩
  · exact h
  · simp [hans] at hfail
  · simp [hopen] at hclosed

theorem execXchgStart_of_preconditions {first : ExchangeStep} {rest : List ExchangeStep} {s : State}
    (hctx : s.cfg.ctx = .motor) (hmany : tooManySteps s.cfg (first :: rest) = false)
    (hok : ∀ st ∈ first :: rest, 1 ≤ st.timeout) :
    execXchgStart (first :: rest) s = .next (startExchange first (first :: rest) s) := by
  have hall : (first :: rest).all ExchangeStep.ok = true :=
    List.all_eq_true.mpr fun st hst => decide_eq_true (hok st hst)
  simp only [execXchgStart, hctx, hmany, hall, Bool.not_true, Bool.false_eq_true, if_false]

/-- XCHG.START on an open connection whose write succeeds: the table is captured, step 0 is sent and its response
awaited (R112). -/
theorem startExchange_of_ok {s : State} (first : ExchangeStep) (steps : List ExchangeStep)
    (hopen : s.connOpen = true) (hans : nextAnswer s = .ok) :
    startExchange first steps s =
      { takeAnswer s with
        xc := ⟨true, steps, 0, true, first.timeout⟩
        out := s.out ++ [.tx (encodeFrame first.request.command first.request.payload) .ok] } := by
  rcases startExchange_cases first steps s with ⟨hclosed, _⟩ | ⟨_, armed, rem, h⟩
  · simp [hopen] at hclosed
  · rw [h, sendStep_of_ok (s := { s with xc := ⟨true, steps, 0, armed, rem⟩ }) first hopen hans]
    rfl

/-- Settles O59: the three steps of R65 meet the preconditions of XCHG.START, which sends the first of them. -/
theorem startMotorExpands : Obligations.StartMotorExpands := by
  intro speed h1 h2 h3 t1 t2 t3 q1 q2 s hctx hopen hmax ht1 ht2 ht3 hans
  have hstart := execXchgStart_of_preconditions
    (first := ⟨⟨0x82, [hi8 speed, lo8 speed]⟩, h1, [], t1⟩)
    (rest := [⟨⟨0x81, q1⟩, h2, [], t2⟩, ⟨⟨0x21, q2⟩, h3, [], t3⟩])
    hctx (tooManySteps_eq_false_iff.mpr hmax) (by simp [ht1, ht2, ht3])
  exact hstart.trans (congrArg _ (startExchange_of_ok _ _ hopen hans))

end Sys2Proof.Machine

/-! The checksum engine (R67, R69): the checksum as a sum of bytes, what one changed byte does to a valid frame,
and the pure operations run alone. -/

namespace Sys2Proof

/-! ### The checksum as a sum in the bytes -/

theorem sum8_eq_sum (b : Bytes) : sum8 b = b.sum := by
  induction b with
  | nil => rfl
  | cons x xs ih => rw [sum8_cons, ih, List.sum_cons]

theorem sum8_toNat (b : Bytes) : (sum8 b).toNat = (b.map BitVec.toNat).sum % 256 := by
  induction b with
  | nil => rfl
  | cons x xs ih =>
    rw [sum8_cons, BitVec.toNat_add, ih, List.map_cons, List.sum_cons]
    exact Nat.add_mod_mod ..

theorem sum8_append (a b : Bytes) : sum8 (a ++ b) = sum8 a + sum8 b := by
  simp only [sum8_eq_sum, List.sum_append]

theorem sum8_perm {a b : Bytes} (h : a.Perm b) : sum8 a = sum8 b := by
  simp only [sum8_eq_sum, h.sum_eq]

/-- R69 (c): a changed byte changes the checksum. -/
theorem sum8_set_ne {b : Bytes} {i : Nat} {v : Byte} (hi : i < b.length) (hv : b[i]? ≠ some v) :
    sum8 (b.set i v) ≠ sum8 b := by
  have hne : b[i] ≠ v := fun h => hv (by rw [List.getElem?_eq_getElem hi, h])
  rw [sum8_eq_sum, sum8_eq_sum, List.sum_set', dif_pos hi]
  intro h
  exact hne (neg_add_eq_zero.mp (add_eq_left.mp h))

/-- Settles O1, by induction on the bytes. -/
theorem checksumIsSumModulo256 : Obligations.ChecksumIsSumModulo256 := sum8_toNat

/-! ### The envelope of a valid frame and its checksum -/

/-- The first three checks of CODEC.DECODE pass (R72): the length, the header and the trailer. -/
structure Enveloped (raw : Bytes) : Prop where
  minLength : Config.minFrameLen ≤ raw.length
  header : raw.take 2 = Config.header
  trailer : raw.drop (raw.length - 2) = Config.trailer

/-- The fourth check of CODEC.DECODE (R72): the checksum byte is the checksum of what precedes it. -/
def ChecksumMatches (raw : Bytes) : Prop :=
  raw[raw.length - 3]? = some (sum8 (raw.take (raw.length - 3)))

theorem decodeFrame_of_checksum_mismatch {raw : Bytes} (henv : Enveloped raw) (hsum : ¬ ChecksumMatches raw) :
    decodeFrame raw = .error .badChecksum := by
  rw [decodeFrame, if_neg (not_lt.mpr henv.minLength), if_neg (not_not.mpr henv.header),
    if_neg (not_not.mpr henv.trailer)]
  exact if_pos hsum

theorem decodeFrame_ok_valid {raw : Bytes} {f : Frame} (h : decodeFrame raw = .ok f) :
    Enveloped raw ∧ ChecksumMatches raw := by
  rw [decodeFrame] at h
  split_ifs at h with hlen hheader htrailer hsum
  exact ⟨⟨not_lt.mp hlen, not_not.mp hheader, not_not.mp htrailer⟩, not_not.mp hsum⟩

/-! ### One changed byte -/

theorem set_ne_self {b : Bytes} {i : Nat} {v : Byte} (hi : i < b.length) (hv : b[i]? ≠ some v) : b.set i v ≠ b := by
  intro h
  rw [← h, List.getElem?_set_self hi] at hv
  exact hv rfl

theorem Enveloped.set_inner {raw : Bytes} {i : Nat} (v : Byte) (h : Enveloped raw) (hi : 2 ≤ i)
    (hn : i + 2 < raw.length) : Enveloped (raw.set i v) where
  minLength := by rw [List.length_set]; exact h.minLength
  header := by rw [List.take_set_of_le hi, h.header]
  trailer := by rw [List.length_set, List.drop_set_of_lt (by omega), h.trailer]

/-- R69 (c): an error in the span moves the sum and keeps the checksum byte; an error in the checksum byte keeps
the sum. -/
theorem not_checksumMatches_set {raw : Bytes} {i : Nat} {v : Byte} (h : ChecksumMatches raw)
    (hn : i + 2 < raw.length) (hv : raw[i]? ≠ some v) : ¬ ChecksumMatches (raw.set i v) := by
  unfold ChecksumMatches at h ⊢
  rw [List.length_set, List.take_set]
  rcases Nat.lt_or_ge i (raw.length - 3) with hspan | hbyte
  · have hi : i < (raw.take (raw.length - 3)).length := by
      rw [List.length_take]
      omega
    rw [List.getElem?_set_ne (by omega), h, Option.some_inj]
    exact (sum8_set_ne hi (by rwa [List.getElem?_take_of_lt hspan])).symm
  · obtain rfl : i = raw.length - 3 := by omega
    rw [List.getElem?_set_self (by omega), List.set_eq_of_length_le (List.length_take_le ..), ← h]
    exact hv.symm

theorem decodeFrame_set_inner {raw : Bytes} {f : Frame} {i : Nat} {v : Byte} (h : decodeFrame raw = .ok f)
    (hi : 2 ≤ i) (hn : i + 2 < raw.length) (hv : raw[i]? ≠ some v) :
    decodeFrame (raw.set i v) = .error .badChecksum := by
  obtain ⟨henv, hsum⟩ := decodeFrame_ok_valid h
  exact decodeFrame_of_checksum_mismatch (henv.set_inner v hi hn) (not_checksumMatches_set hsum hn hv)

theorem Enveloped.not_set_header {raw : Bytes} {i : Nat} {v : Byte} (h : Enveloped raw) (hi : i < 2)
    (hv : raw[i]? ≠ some v) : ¬ Enveloped (raw.set i v) := by
  intro hset
  have hmin : 8 ≤ raw.length := h.minLength
  have htake : (raw.take 2).set i v = raw.take 2 := by
    rw [← List.take_set, hset.header, h.header]
  exact set_ne_self (by rw [List.length_take]; omega) (by rwa [List.getElem?_take_of_lt hi]) htake

theorem Enveloped.not_set_trailer {raw : Bytes} {i : Nat} {v : Byte} (h : Enveloped raw) (hi : i < raw.length)
    (hn : raw.length - 2 ≤ i) (hv : raw[i]? ≠ some v) : ¬ Enveloped (raw.set i v) := by
  intro hset
  have htrailer := hset.trailer
  rw [List.length_set, List.drop_set, if_neg (not_lt.mpr hn), ← h.trailer] at htrailer
  exact set_ne_self (by rw [List.length_drop]; omega)
    (by rwa [List.getElem?_drop, Nat.add_sub_cancel' hn]) htrailer

/-- Settles O2: the laws of a sum over a commutative group, and the checksum error of `decodeFrame_set_inner`. -/
theorem checksumLaws : Obligations.ChecksumLaws := by
  refine ⟨sum8_append, fun _ _ => sum8_perm, ?oneChange, ?cancellingChanges, ?zeroByte,
    fun raw f i v => decodeFrame_set_inner⟩
  case oneChange =>
    intro a b x d
    simp only [sum8_append, sum8_cons, sum8_nil]
    ring
  case cancellingChanges =>
    intro a b c x y d
    simp only [sum8_append, sum8_cons, sum8_nil]
    ring
  case zeroByte =>
    intro a b
    simp [sum8_append]

/-- Settles O6: a changed header or trailer byte breaks the envelope, any other changed byte the checksum. -/
theorem singleByteErrorIsRejected : Obligations.SingleByteErrorIsRejected := by
  intro raw f i v h hi hv
  obtain ⟨henv, _⟩ := decodeFrame_ok_valid h
  cases hset : decodeFrame (raw.set i v) with
  | error e => exact ⟨e, rfl⟩
  | ok g =>
    exfalso
    obtain ⟨hsetEnv, _⟩ := decodeFrame_ok_valid hset
    rcases Nat.lt_or_ge i 2 with hheader | hge
    · exact henv.not_set_header hheader hv hsetEnv
    rcases Nat.lt_or_ge (i + 2) raw.length with hinner | htrailer
    · rw [decodeFrame_set_inner h hge hinner hv] at hset
      cases hset
    · exact henv.not_set_trailer hi (by omega) hv hsetEnv

end Sys2Proof

namespace Sys2Proof.Machine

/-! ### The pure operations run alone -/

theorem execCodecDecode_of_ok {raw : Bytes} {f : Frame} (s : State) (h : decodeFrame raw = .ok f) :
    execCodecDecode raw s = .next (returnValue (.frame f) s) := by
  simp only [execCodecDecode, h]

theorem execCodecDecode_of_error {raw : Bytes} {e : FrameError} (s : State) (h : decodeFrame raw = .error e) :
    execCodecDecode raw s = .next (returnValue (.frameError e) s) := by
  simp only [execCodecDecode, h]

/-- Settles O7: each operation answers `returnValue` of its value, which writes `ret` only. -/
theorem pureOperationsReturnTheirValue : Obligations.PureOperationsReturnTheirValue :=
  ⟨fun _ _ => rfl, fun _ _ _ => rfl, fun _ _ s h => execCodecDecode_of_ok s h,
    fun _ _ s h => execCodecDecode_of_error s h⟩

end Sys2Proof.Machine

/-! The frame codec (R70 to R75): one equation of CODEC.DECODE per outcome of its four checks, and a valid frame as
the wire image of the Frame it decodes to. -/

namespace Sys2Proof

/-! ### The outcomes of CODEC.DECODE -/

theorem decodeFrame_of_tooShort {raw : Bytes} (h : raw.length < Config.minFrameLen) :
    decodeFrame raw = .error .tooShort :=
  if_pos h

theorem decodeFrame_of_badHeader {raw : Bytes} (hlen : Config.minFrameLen ≤ raw.length)
    (h : raw.take 2 ≠ Config.header) : decodeFrame raw = .error .badHeader := by
  rw [decodeFrame, if_neg (not_lt.mpr hlen), if_pos h]

theorem decodeFrame_of_badTrailer {raw : Bytes} (hlen : Config.minFrameLen ≤ raw.length)
    (hheader : raw.take 2 = Config.header) (h : raw.drop (raw.length - 2) ≠ Config.trailer) :
    decodeFrame raw = .error .badTrailer := by
  rw [decodeFrame, if_neg (not_lt.mpr hlen), if_neg (not_not.mpr hheader), if_pos h]

/-- The Frame of a valid `raw` (R70): its command is `raw[2]`, its payload `raw[3 : n-3]`. -/
def frameOf (raw : Bytes) : Frame := ⟨raw.getD 2 0, (raw.take (raw.length - 3)).drop 3⟩

theorem decodeFrame_of_valid {raw : Bytes} (henv : Enveloped raw) (hsum : ChecksumMatches raw) :
    decodeFrame raw = .ok (frameOf raw) := by
  rw [decodeFrame, if_neg (not_lt.mpr henv.minLength), if_neg (not_not.mpr henv.header),
    if_neg (not_not.mpr henv.trailer)]
  exact if_neg (not_not.mpr hsum)

theorem decodeFrame_ok_iff {raw : Bytes} {f : Frame} :
    decodeFrame raw = .ok f ↔ Enveloped raw ∧ ChecksumMatches raw ∧ f = frameOf raw := by
  constructor
  · intro h
    obtain ⟨henv, hsum⟩ := decodeFrame_ok_valid h
    rw [decodeFrame_of_valid henv hsum] at h
    exact ⟨henv, hsum, (Except.ok.inj h).symm⟩
  · rintro ⟨henv, hsum, rfl⟩
    exact decodeFrame_of_valid henv hsum

theorem Enveloped.getElem?_command {raw : Bytes} (h : Enveloped raw) : raw[2]? = some (frameOf raw).command := by
  have hmin : 8 ≤ raw.length := h.minLength
  rw [frameOf, List.getD_eq_getElem?_getD, List.getElem?_eq_getElem (by omega), Option.getD_some]

/-- Settles O4: the branches of `decodeFrame` in their order. -/
theorem decodeReportsFirstFailure : Obligations.DecodeReportsFirstFailure := by
  intro raw
  refine ⟨decodeFrame_of_tooShort, decodeFrame_of_badHeader, decodeFrame_of_badTrailer,
    fun hlen hheader htrailer => decodeFrame_of_checksum_mismatch ⟨hlen, hheader, htrailer⟩, ?valid⟩
  case valid =>
    intro hlen hheader htrailer hsum
    have henv : Enveloped raw := ⟨hlen, hheader, htrailer⟩
    exact ⟨_, henv.getElem?_command, decodeFrame_of_valid henv hsum⟩

/-! ### A valid frame is a wire image -/

/-- What precedes the checksum byte is the span of the decoded Frame (R68). -/
theorem Enveloped.frameSpan_frameOf {raw : Bytes} (h : Enveloped raw) :
    frameSpan (frameOf raw).command (frameOf raw).payload = raw.take (raw.length - 3) := by
  have hmin : 8 ≤ raw.length := h.minLength
  have hfirst : (raw.take (raw.length - 3)).take 3 = Config.header ++ [(frameOf raw).command] := by
    rw [List.take_take, min_eq_left (by omega), List.take_add_one, h.header, h.getElem?_command, Option.toList_some]
  rw [frameSpan, ← hfirst]
  exact List.take_append_drop 3 _

/-- R70: `raw` is cut at its checksum byte into the span, the checksum and the trailer. -/
theorem encodeFrame_frameOf {raw : Bytes} (henv : Enveloped raw) (hsum : ChecksumMatches raw) :
    encodeFrame (frameOf raw).command (frameOf raw).payload = raw := by
  have hmin : 8 ≤ raw.length := henv.minLength
  have hcut : raw.take (raw.length - 2) =
      raw.take (raw.length - 3) ++ [sum8 (raw.take (raw.length - 3))] := by
    rw [show raw.length - 2 = raw.length - 3 + 1 by omega, List.take_add_one, hsum, Option.toList_some]
  rw [encodeFrame, henv.frameSpan_frameOf, ← hcut, ← henv.trailer]
  exact List.take_append_drop _ raw

theorem two_le_frameOf_payload_length {raw : Bytes} (h : Enveloped raw) : 2 ≤ (frameOf raw).payload.length := by
  have hmin : 8 ≤ raw.length := h.minLength
  rw [frameOf, List.length_drop, List.length_take]
  omega

/-- R70 and R75: CODEC.DECODE accepts the wire images of the Frames with a payload of at least 2 bytes, each as the
Frame it is the image of. -/
theorem decodeFrame_ok_iff_wire_image {raw : Bytes} {f : Frame} :
    decodeFrame raw = .ok f ↔ 2 ≤ f.payload.length ∧ encodeFrame f.command f.payload = raw := by
  constructor
  · intro h
    obtain ⟨henv, hsum, rfl⟩ := decodeFrame_ok_iff.mp h
    exact ⟨two_le_frameOf_payload_length henv, encodeFrame_frameOf henv hsum⟩
  · rintro ⟨hp, rfl⟩
    exact decodeFrame_encodeFrame f.command hp

/-- R70: a valid frame is the image of no other Frame. An image of its length has a payload of at least 2 bytes, so
it decodes to what it is the image of. -/
theorem eq_of_encodeFrame_eq_valid {raw : Bytes} {f g : Frame} (h : decodeFrame raw = .ok f)
    (hg : encodeFrame g.command g.payload = raw) : g = f := by
  obtain ⟨hp, hf⟩ := decodeFrame_ok_iff_wire_image.mp h
  have hlen : g.payload.length + 6 = f.payload.length + 6 := by
    rw [← encodeFrame_length g.command, ← encodeFrame_length f.command, hg, hf]
  have hdec : decodeFrame raw = .ok g := decodeFrame_ok_iff_wire_image.mpr ⟨by omega, hg⟩
  exact Except.ok.inj (hdec.symm.trans h)

theorem sum8_frameSpan (c : Byte) (p : Bytes) : sum8 (frameSpan c p) = 0x12 + c + sum8 p := by
  have hheader : sum8 Config.header = 0x12 := by decide
  rw [frameSpan, sum8_append, sum8_append, hheader, sum8_cons, sum8_nil, add_zero]

/-- Settles O3: the valid frames are the wire images of the Frames with a payload of at least 2 bytes. -/
theorem validFramesAreWireImages : Obligations.ValidFramesAreWireImages := by
  refine ⟨?image, ?clauses, ?unique, ?short⟩
  case image =>
    intro c p
    exact ⟨List.append_assoc .., encodeFrame_length c p, sum8_frameSpan c p⟩
  case clauses =>
    intro raw
    constructor
    · rintro ⟨f, h⟩
      obtain ⟨⟨hlen, hheader, htrailer⟩, hsum⟩ := decodeFrame_ok_valid h
      exact ⟨hlen, hheader, htrailer, hsum⟩
    · rintro ⟨hlen, hheader, htrailer, hsum⟩
      exact ⟨_, decodeFrame_of_valid ⟨hlen, hheader, htrailer⟩ hsum⟩
  case unique =>
    intro raw f h
    obtain ⟨henv, hsum, rfl⟩ := decodeFrame_ok_iff.mp h
    exact ⟨henv.getElem?_command, rfl, two_le_frameOf_payload_length henv, encodeFrame_frameOf henv hsum,
      fun _ hg => eq_of_encodeFrame_eq_valid h hg⟩
  case short =>
    intro c p
    constructor
    · rintro ⟨f, h⟩
      obtain rfl : (⟨c, p⟩ : Frame) = f := eq_of_encodeFrame_eq_valid h rfl
      exact (decodeFrame_ok_iff_wire_image.mp h).1
    · exact fun hp => ⟨⟨c, p⟩, decodeFrame_encodeFrame c hp⟩

/-! ### The round trip -/

/-- The wire image with its checksum byte alone replaced. -/
theorem encodeFrame_set_checksum (c k : Byte) (p : Bytes) :
    (encodeFrame c p).set ((encodeFrame c p).length - 3) k = [0x10, 0x02, c] ++ p ++ [k, 0x10, 0x03] := by
  simp [encodeFrame_eq]

/-- Settles O5: the halves of `decodeFrame_ok_iff_wire_image`, the length of a short image, and the changed checksum
byte as one changed byte of a valid frame. -/
theorem codecRoundTrip : Obligations.CodecRoundTrip := by
  refine ⟨fun c p => decodeFrame_encodeFrame c, fun raw f h => (decodeFrame_ok_iff_wire_image.mp h).2, ?short,
    ?checksum⟩
  case short =>
    intro c p hp
    refine decodeFrame_of_tooShort ?_
    rw [encodeFrame_length, Config.minFrameLen]
    omega
  case checksum =>
    intro c k p hp hk
    have hlen := encodeFrame_length c p
    have hchanged : (encodeFrame c p)[(encodeFrame c p).length - 3]? ≠ some k := by
      rw [encodeFrame_checksum]
      exact fun h => hk (Option.some.inj h).symm
    rw [← encodeFrame_set_checksum]
    exact decodeFrame_set_inner (decodeFrame_encodeFrame c hp) (by omega) (by omega) hchanged

end Sys2Proof

/-! The stream reassembler (R77 to R88): a buffer is cut at its first header 10 02 and at the first 03 behind it.
RSM.FEED has one equation per case of that cut, an induction principle goes along it, and the obligations on
candidates, chunks and garbage follow from the equations. -/

namespace Sys2Proof.Machine

/-! ### Bytes without a header -/

/-- R172: `NoHeader` as a property of neighbouring bytes. -/
theorem noHeader_iff_isChain {g : Bytes} : NoHeader g ↔ g.IsChain (fun a b => ¬ (a = 0x10 ∧ b = 0x02)) := by
  rw [List.isChain_iff_getElem]
  constructor
  · intro h i hi
    simpa [List.getElem?_eq_getElem hi, List.getElem?_eq_getElem (Nat.lt_of_succ_lt hi)] using h i
  · rintro h i ⟨hfirst, hsecond⟩
    obtain ⟨_, hfirst⟩ := List.getElem?_eq_some_iff.mp hfirst
    obtain ⟨hi, hsecond⟩ := List.getElem?_eq_some_iff.mp hsecond
    exact h i hi ⟨hfirst, hsecond⟩

theorem noHeader_nil : NoHeader [] := noHeader_iff_isChain.mpr .nil

theorem noHeader_append {g t : Bytes} :
    NoHeader (g ++ t) ↔
      NoHeader g ∧ NoHeader t ∧ ∀ a ∈ g.getLast?, ∀ b ∈ t.head?, ¬ (a = 0x10 ∧ b = 0x02) := by
  simp only [noHeader_iff_isChain, List.isChain_append]

theorem noHeader_cons {b : Byte} {t : Bytes} :
    NoHeader (b :: t) ↔ (∀ c ∈ t.head?, ¬ (b = 0x10 ∧ c = 0x02)) ∧ NoHeader t := by
  simp only [noHeader_iff_isChain, List.isChain_cons]

theorem noHeader_singleton (b : Byte) : NoHeader [b] := noHeader_cons.mpr ⟨nofun, noHeader_nil⟩

/-- A header that begins in `g` and ends in 10 would end in 02. -/
theorem noHeader_append_headerByte {g : Bytes} : NoHeader (g ++ [0x10]) ↔ NoHeader g := by
  simp [noHeader_append, noHeader_singleton]

/-- The first byte of `t` decides whether a header spans the junction. -/
theorem noHeader_append_of_take_one {g t : Bytes} (h : NoHeader (g ++ t.take 1)) (ht : NoHeader t) :
    NoHeader (g ++ t) := by
  obtain ⟨hg, _, hjunction⟩ := noHeader_append.mp h
  exact noHeader_append.mpr ⟨hg, ht, by simpa [List.head?_take] using hjunction⟩

/-- The same where `t` is `g'` and a first header behind it. -/
theorem noHeader_append_before_header {g g' x : Bytes} (h : NoHeader (g ++ (g' ++ 0x10 :: x).take 1))
    (hg' : NoHeader g') : NoHeader (g ++ g') := by
  have htake : (g' ++ 0x10 :: x).take 1 = (g' ++ [0x10]).take 1 := by cases g' <;> rfl
  rw [htake] at h
  rw [← noHeader_append_headerByte, List.append_assoc]
  exact noHeader_append_of_take_one h (noHeader_append_headerByte.mpr hg')

/-- Steps 2 to 4 of R77 as a cut: the bytes hold no header, or they are cut at the first one. -/
theorem noHeader_or_first_header (b : Bytes) : NoHeader b ∨ ∃ g x, b = g ++ 0x10 :: 0x02 :: x ∧ NoHeader g := by
  induction b with
  | nil => exact .inl noHeader_nil
  | cons b rest ih =>
    by_cases hb : ∃ x, b :: rest = 0x10 :: 0x02 :: x
    · obtain ⟨x, hx⟩ := hb
      exact .inr ⟨[], x, hx, noHeader_nil⟩
    · have hhere : ∀ c ∈ rest.head?, ¬ (b = 0x10 ∧ c = 0x02) := by
        rintro c hc ⟨rfl, rfl⟩
        obtain ⟨x, rfl⟩ := List.head?_eq_some_iff.mp hc
        exact hb ⟨x, rfl⟩
      rcases ih with hrest | ⟨g, x, rfl, hg⟩
      · exact .inl (noHeader_cons.mpr ⟨hhere, hrest⟩)
      · refine .inr ⟨b :: g, x, rfl, noHeader_cons.mpr ⟨fun c hc => hhere c ?_, hg⟩⟩
        rw [Option.mem_def] at hc ⊢
        rw [List.head?_append, hc, Option.some_or]

/-! ### The header scan and the search for the trailer byte -/

theorem scanHeader_cons_cons {b c : Byte} (h : ¬ (b = 0x10 ∧ c = 0x02)) (x : Bytes) :
    scanHeader (b :: c :: x) = scanHeader (c :: x) := by
  by_cases hb : b = Config.headerByte
  · subst hb
    exact scanHeader_drop (fun hc => h ⟨rfl, hc⟩) x
  · exact scanHeader_skip hb _

/-- R80, R81: the scan drops the bytes before the first header. -/
theorem scanHeader_append {g : Bytes} {c : Byte} (x : Bytes) (h : NoHeader (g ++ [c])) :
    scanHeader (g ++ c :: x) = scanHeader (c :: x) := by
  induction g with
  | nil => rfl
  | cons b g ih =>
    obtain ⟨hb, htail⟩ := noHeader_cons.mp h
    rw [← ih htail]
    cases g with
    | nil => exact scanHeader_cons_cons (hb c rfl) x
    | cons d g => exact scanHeader_cons_cons (hb d rfl) _

theorem scanHeader_of_first_header {g : Bytes} (x : Bytes) (hg : NoHeader g) :
    scanHeader (g ++ 0x10 :: 0x02 :: x) = .found (0x10 :: 0x02 :: x) := by
  rw [scanHeader_append _ (noHeader_append_headerByte.mpr hg)]
  exact scanHeader_here x

/-- R79, R82: without a header the scan leaves at most a last 10. -/
theorem scanHeader_of_noHeader {b : Bytes} (hb : NoHeader b) :
    scanHeader b = if b.getLast? = some 0x10 then .lone else .absent := by
  rcases List.eq_nil_or_concat b with rfl | ⟨g, c, rfl⟩
  · exact scanHeader_nil
  · rw [List.concat_eq_append] at hb ⊢
    rw [scanHeader_append [] hb, List.getLast?_concat]
    by_cases hc : c = 0x10
    · subst hc
      exact scanHeader_lone
    · rw [scanHeader_skip hc, if_neg (by simpa using hc), scanHeader_nil]

theorem find_trailer_eq_none {x : Bytes} (hx : 0x03 ∉ x) : find (0x10 :: 0x02 :: x) 0x03 1 = none := by
  rw [find_eq_none_iff]
  intro j hj hbyte
  have hmem : (0x03 : Byte) ∈ (0x02 :: x : Bytes) := by
    obtain ⟨j, rfl⟩ := Nat.exists_eq_add_of_le' hj
    exact List.mem_of_getElem? hbyte
  rcases List.mem_cons.mp hmem with h | h
  · exact absurd h (by decide)
  · exact hx h

theorem find_trailer_eq_some {y : Bytes} (z : Bytes) (hy : 0x03 ∉ y) :
    find (0x10 :: 0x02 :: (y ++ 0x03 :: z)) 0x03 1 = some (y.length + 2) := by
  refine find_eq_some_iff.mpr ⟨by omega, by simp, ?_⟩
  intro j hj hlt hbyte
  refine find_eq_none_iff.mp (find_trailer_eq_none hy) j hj ?_
  rw [← List.cons_append, ← List.cons_append, List.getElem?_append_left hlt] at hbyte
  exact hbyte

/-! ### One equation of RSM.FEED per case of the cut -/

theorem feed_eq_feed_nil (rb chunk : Bytes) : feed rb chunk = feed [] (rb ++ chunk) := rfl

theorem passes_eq_feed {fuel : Nat} {b : Bytes} (h : b.length < fuel) : passes fuel b = feed [] b :=
  passes_fuel h (Nat.lt_succ_self _)

/-- R78. -/
theorem feed_of_short {b : Bytes} (h : b.length < 4) : feed [] b = ([], b) :=
  if_pos h

theorem feed_nil : feed [] [] = ([], []) := feed_of_short (Nat.zero_lt_succ _)

/-- R79, R82. -/
theorem feed_of_noHeader {b : Bytes} (h4 : 4 ≤ b.length) (hb : NoHeader b) :
    feed [] b = ([], if b.getLast? = some 0x10 then [0x10] else []) := by
  have hlen : ¬ b.length < Config.minCandidateLen := not_lt.mpr h4
  rw [feed, List.nil_append, passes, if_neg hlen, scanHeader_of_noHeader hb]
  split_ifs <;> rfl

/-- R83. -/
theorem feed_of_awaiting {g x : Bytes} (h4 : 4 ≤ (g ++ 0x10 :: 0x02 :: x).length) (hg : NoHeader g)
    (hx : 0x03 ∉ x) : feed [] (g ++ 0x10 :: 0x02 :: x) = ([], 0x10 :: 0x02 :: x) := by
  have hlen : ¬ (g ++ 0x10 :: 0x02 :: x).length < Config.minCandidateLen := not_lt.mpr h4
  have hfind : find (0x10 :: 0x02 :: x) Config.trailerByte 1 = none := find_trailer_eq_none hx
  simp only [feed, List.nil_append, passes, hlen, scanHeader_of_first_header x hg, hfind, if_false]

/-- The candidates of R84 and R85 from the bytes between a header and the first 03 behind it: none when there are
no such bytes, else the one that is yielded. -/
def candidatesOf (y : Bytes) : List Bytes := if y = [] then [] else [0x10 :: 0x02 :: (y ++ [0x03])]

theorem candidatesOf_nil : candidatesOf [] = [] := rfl

theorem candidatesOf_of_ne_nil {y : Bytes} (hy : y ≠ []) : candidatesOf y = [0x10 :: 0x02 :: (y ++ [0x03])] :=
  if_neg hy

/-- R84, R85: the bytes up to the first 03 behind the header are taken off and the passes go on. -/
theorem feed_of_trailer {g y : Bytes} (z : Bytes) (h4 : 4 ≤ (g ++ 0x10 :: 0x02 :: (y ++ 0x03 :: z)).length)
    (hg : NoHeader g) (hy : 0x03 ∉ y) :
    feed [] (g ++ 0x10 :: 0x02 :: (y ++ 0x03 :: z)) = (candidatesOf y ++ (feed [] z).1, (feed [] z).2) := by
  have hlen : ¬ (g ++ 0x10 :: 0x02 :: (y ++ 0x03 :: z)).length < Config.minCandidateLen := not_lt.mpr h4
  have hfind : find (0x10 :: 0x02 :: (y ++ 0x03 :: z)) Config.trailerByte 1 = some (y.length + 2) :=
    find_trailer_eq_some z hy
  have htake : (0x10 :: 0x02 :: (y ++ 0x03 :: z)).take (y.length + 2 + 1) = 0x10 :: 0x02 :: (y ++ [0x03]) := by
    simp [List.take_append]
  have hdrop : (0x10 :: 0x02 :: (y ++ 0x03 :: z)).drop (y.length + 2 + 1) = z := by
    simp [List.drop_append]
  have hlater : passes (g ++ 0x10 :: 0x02 :: (y ++ 0x03 :: z)).length z = feed [] z :=
    passes_eq_feed (by simp; omega)
  rw [feed, List.nil_append, passes, if_neg hlen, scanHeader_of_first_header _ hg]
  simp only [hfind, htake, hdrop, hlater]
  cases y with
  | nil => rfl
  | cons c y => simp [candidatesOf, Config.minCandidateLen]

/-- Settles O12: the cases of the cut, the last one with and without bytes between the header and the 03. -/
theorem feedFollowsItsSteps : Obligations.FeedFollowsItsSteps := by
  intro rb chunk
  rw [feed_eq_feed_nil]
  refine ⟨feed_of_short, feed_of_noHeader, ?awaiting, ?discarded, ?yielded⟩
  case awaiting =>
    intro g x h4 hb hg hx
    rw [hb] at h4 ⊢
    exact feed_of_awaiting h4 (noHeader_append_headerByte.mp hg) hx
  case discarded =>
    intro g z h4 hb hg
    rw [hb] at h4 ⊢
    exact feed_of_trailer (y := []) z h4 (noHeader_append_headerByte.mp hg) List.not_mem_nil
  case yielded =>
    intro g y z h4 hb hg hne hy
    rw [hb] at h4 ⊢
    rw [feed_of_trailer z h4 (noHeader_append_headerByte.mp hg) hy, candidatesOf_of_ne_nil hne, List.singleton_append]

/-- Settles O10, the case analysis of one pass being `passes_settles`. -/
theorem feedSettlesTheBuffer : Obligations.FeedSettlesTheBuffer := feed_settles

/-! ### Induction along the cut -/

/-- Every buffer has no header, or a first header that awaits its 03, or one with an 03 behind it and then a
shorter buffer. -/
theorem stream_induction {motive : Bytes → Prop} (noHeader : ∀ b, NoHeader b → motive b)
    (awaiting : ∀ g x, NoHeader g → 0x03 ∉ x → motive (g ++ 0x10 :: 0x02 :: x))
    (trailer : ∀ g y z, NoHeader g → 0x03 ∉ y → motive z → motive (g ++ 0x10 :: 0x02 :: (y ++ 0x03 :: z)))
    (b : Bytes) : motive b := by
  induction hn : b.length using Nat.strong_induction_on generalizing b with
  | _ n ih =>
    rcases noHeader_or_first_header b with hb | ⟨g, x, rfl, hg⟩
    · exact noHeader b hb
    by_cases hx : 0x03 ∈ x
    · obtain ⟨y, z, rfl, hy⟩ := List.eq_append_cons_of_mem hx
      exact trailer g y z hg hy (ih z.length (by simp at hn; omega) z rfl)
    · exact awaiting g x hg hx

theorem feed_rest_suffix (b : Bytes) : (feed [] b).2 <:+ b := by
  induction b using stream_induction with
  | noHeader b hb =>
    rcases Nat.lt_or_ge b.length 4 with h4 | h4
    · rw [feed_of_short h4]
    · rw [feed_of_noHeader h4 hb]
      split_ifs with hlast
      · obtain ⟨g, rfl⟩ := List.getLast?_eq_some_iff.mp hlast
        exact List.suffix_append g [0x10]
      · exact List.nil_suffix
  | awaiting g x hg hx =>
    rcases Nat.lt_or_ge (g ++ 0x10 :: 0x02 :: x).length 4 with h4 | h4
    · rw [feed_of_short h4]
    · rw [feed_of_awaiting h4 hg hx]
      exact List.suffix_append g _
  | trailer g y z hg hy ih =>
    rcases Nat.lt_or_ge (g ++ 0x10 :: 0x02 :: (y ++ 0x03 :: z)).length 4 with h4 | h4
    · rw [feed_of_short h4]
    · rw [feed_of_trailer z h4 hg hy]
      exact ih.trans ⟨g ++ 0x10 :: 0x02 :: (y ++ [0x03]), by simp⟩

/-! ### The candidates of a stream -/

theorem candidates_of_noHeader {b : Bytes} (hb : NoHeader b) : (feed [] b).1 = [] := by
  rcases Nat.lt_or_ge b.length 4 with h4 | h4
  · rw [feed_of_short h4]
  · rw [feed_of_noHeader h4 hb]

theorem candidates_of_awaiting {g x : Bytes} (hg : NoHeader g) (hx : 0x03 ∉ x) :
    (feed [] (g ++ 0x10 :: 0x02 :: x)).1 = [] := by
  rcases Nat.lt_or_ge (g ++ 0x10 :: 0x02 :: x).length 4 with h4 | h4
  · rw [feed_of_short h4]
  · rw [feed_of_awaiting h4 hg hx]

/-- The only such buffer that is too short for a pass is 10 02 03. -/
theorem candidates_of_trailer {g y : Bytes} (z : Bytes) (hg : NoHeader g) (hy : 0x03 ∉ y) :
    (feed [] (g ++ 0x10 :: 0x02 :: (y ++ 0x03 :: z))).1 = candidatesOf y ++ (feed [] z).1 := by
  rcases Nat.lt_or_ge (g ++ 0x10 :: 0x02 :: (y ++ 0x03 :: z)).length 4 with h4 | h4
  · have hlen := h4
    simp only [List.length_append, List.length_cons] at hlen
    obtain rfl : y = [] := List.length_eq_zero_iff.mp (by omega)
    rw [feed_of_short h4, feed_of_short (by omega), candidatesOf_nil, List.append_nil]
  · rw [feed_of_trailer z h4 hg hy]

theorem candidatesOf_framed {y cand : Bytes} (hy : 0x03 ∉ y) (h : cand ∈ candidatesOf y) :
    4 ≤ cand.length ∧ cand.take 2 = [0x10, 0x02] ∧ ∃ m, cand = m ++ [0x03] ∧ 0x03 ∉ m := by
  cases y with
  | nil => cases h
  | cons c y =>
    obtain rfl : cand = 0x10 :: 0x02 :: (c :: y ++ [0x03]) := List.mem_singleton.mp h
    exact ⟨by simp, rfl, 0x10 :: 0x02 :: c :: y, rfl, by simpa using hy⟩

/-- Settles O11: what is left is a suffix of the buffer, and each candidate is the one between a header and the
first 03 behind it. -/
theorem candidatesAreFramed : Obligations.CandidatesAreFramed := by
  intro rb chunk
  rw [feed_eq_feed_nil]
  refine ⟨feed_rest_suffix _, ?_⟩
  induction rb ++ chunk using stream_induction with
  | noHeader b hb =>
    rw [candidates_of_noHeader hb]
    exact nofun
  | awaiting g x hg hx =>
    rw [candidates_of_awaiting hg hx]
    exact nofun
  | trailer g y z hg hy ih =>
    intro cand hcand
    rw [candidates_of_trailer z hg hy, List.mem_append] at hcand
    exact hcand.elim (candidatesOf_framed hy) (ih cand)

/-! ### Chunk boundaries -/

/-- R80: bytes before `t` that no header begins in do not change the candidates. -/
theorem candidates_append_of_noHeader {g t : Bytes} (h : NoHeader (g ++ t.take 1)) :
    (feed [] (g ++ t)).1 = (feed [] t).1 := by
  induction t using stream_induction with
  | noHeader t ht =>
    rw [candidates_of_noHeader ht, candidates_of_noHeader (noHeader_append_of_take_one h ht)]
  | awaiting g' x hg' hx =>
    have hgg' : NoHeader (g ++ g') := noHeader_append_before_header h hg'
    rw [← List.append_assoc, candidates_of_awaiting hg' hx, candidates_of_awaiting hgg' hx]
  | trailer g' y z hg' hy _ =>
    have hgg' : NoHeader (g ++ g') := noHeader_append_before_header h hg'
    rw [← List.append_assoc, candidates_of_trailer z hg' hy, candidates_of_trailer z hgg' hy]

/-- R82: of bytes without a header, only a last 10 matters to what follows. -/
theorem candidates_append_of_last {b : Bytes} (hb : NoHeader b) (t : Bytes) :
    (feed [] (b ++ t)).1 = (feed [] ((if b.getLast? = some 0x10 then [0x10] else []) ++ t)).1 := by
  split_ifs with hlast
  · obtain ⟨g, rfl⟩ := List.getLast?_eq_some_iff.mp hlast
    rw [List.append_assoc]
    exact candidates_append_of_noHeader hb
  · refine candidates_append_of_noHeader (noHeader_append.mpr ⟨hb, ?_, ?_⟩)
    · cases t with
      | nil => exact noHeader_nil
      | cons c t => exact noHeader_singleton c
    · rintro a ha _ _ ⟨rfl, _⟩
      exact hlast ha

theorem candidates_append_of_short {b : Bytes} (t : Bytes) (h : b.length < 4) :
    (feed [] (b ++ t)).1 = (feed [] b).1 ++ (feed (feed [] b).2 t).1 := by
  rw [feed_eq_feed_nil (feed [] b).2, feed_of_short h, List.nil_append]

/-- R88 (c) for one boundary: the candidates of a stream are those of its first part and those of what the first
feed left with the second part. -/
theorem candidates_append (b t : Bytes) :
    (feed [] (b ++ t)).1 = (feed [] b).1 ++ (feed (feed [] b).2 t).1 := by
  rcases Nat.lt_or_ge b.length 4 with h4 | h4
  · exact candidates_append_of_short t h4
  rw [feed_eq_feed_nil (feed [] b).2]
  induction b using stream_induction with
  | noHeader b hb => rw [feed_of_noHeader h4 hb, candidates_append_of_last hb, List.nil_append]
  | awaiting g x hg hx =>
    rw [feed_of_awaiting h4 hg hx, List.nil_append, List.append_assoc]
    exact candidates_append_of_noHeader (noHeader_append_headerByte.mpr hg)
  | trailer g y z hg hy ih =>
    have hz : (feed [] (z ++ t)).1 = (feed [] z).1 ++ (feed [] ((feed [] z).2 ++ t)).1 :=
      (Nat.lt_or_ge z.length 4).elim (candidates_append_of_short t) ih
    have hassoc : g ++ 0x10 :: 0x02 :: (y ++ 0x03 :: z) ++ t = g ++ 0x10 :: 0x02 :: (y ++ 0x03 :: (z ++ t)) := by
      simp
    rw [hassoc, candidates_of_trailer _ hg hy, hz, feed_of_trailer z h4 hg hy, List.append_assoc]

/-- What a feed leaves holds no candidate by itself: fed nothing more, it yields nothing more. -/
theorem candidates_of_rest (rb chunk : Bytes) : (feed (feed rb chunk).2 []).1 = [] := by
  have h := candidates_append (rb ++ chunk) []
  rw [List.append_nil] at h
  exact List.self_eq_append_right.mp h

/-- R88 (c): chunk by chunk or all at once, the candidates are the same. -/
theorem candidates_feedAll {rb : Bytes} (chunks : List Bytes) (hrb : (feed rb []).1 = []) :
    (feedAll rb chunks).1 = (feed rb chunks.flatten).1 := by
  induction chunks generalizing rb with
  | nil => exact hrb.symm
  | cons c cs ih =>
    calc (feed rb c).1 ++ (feedAll (feed rb c).2 cs).1
      _ = (feed rb c).1 ++ (feed (feed rb c).2 cs.flatten).1 := by rw [ih (candidates_of_rest rb c)]
      _ = (feed [] (rb ++ c ++ cs.flatten)).1 := (candidates_append (rb ++ c) cs.flatten).symm
      _ = (feed rb (c :: cs).flatten).1 := by rw [List.append_assoc, List.flatten_cons, feed_eq_feed_nil rb]

/-- Settles O15: both cuttings yield the candidates of the one stream. -/
theorem candidatesIgnoreChunkBoundaries : Obligations.CandidatesIgnoreChunkBoundaries := by
  intro a b hab
  have hnil : (feed [] []).1 = [] := by rw [feed_nil]
  rw [candidates_feedAll a hnil, candidates_feedAll b hnil, hab]

/-! ### Valid frames -/

/-- A valid frame without an inner 03 is cut as one candidate. -/
theorem exists_cut_of_valid {raw : Bytes} {f : Frame} (h : decodeFrame raw = .ok f) (h03 : 0x03 ∉ raw.dropLast) :
    ∃ y, raw = 0x10 :: 0x02 :: (y ++ [0x03]) ∧ y ≠ [] ∧ 0x03 ∉ y := by
  obtain ⟨_, rfl⟩ := decodeFrame_ok_iff_wire_image.mp h
  refine ⟨f.command :: (f.payload ++ [sum8 (frameSpan f.command f.payload), 0x10]), ?_, List.cons_ne_nil _ _, ?_⟩
  · simp [encodeFrame_eq]
  · intro hmem
    refine h03 ?_
    simpa [encodeFrame_eq, List.dropLast_cons_of_ne_nil] using hmem

/-- R88 (b): a candidate behind bytes without a header comes out alone. -/
theorem feed_garbage_candidate {g y : Bytes} (hg : NoHeader g) (hne : y ≠ []) (hy : 0x03 ∉ y) :
    feed [] (g ++ 0x10 :: 0x02 :: (y ++ [0x03])) = ([0x10 :: 0x02 :: (y ++ [0x03])], []) := by
  have hpos : 0 < y.length := List.length_pos_iff.mpr hne
  rw [feed_of_trailer [] (by simp; omega) hg hy, feed_nil, candidatesOf_of_ne_nil hne, List.append_nil]

/-- Settles O14: the garbage and the frame are one cut. -/
theorem garbageIsDiscarded : Obligations.GarbageIsDiscarded := by
  intro g raw f hg h h03
  obtain ⟨y, rfl, hne, hy⟩ := exists_cut_of_valid h h03
  exact feed_garbage_candidate hg hne hy

/-- A proper initial piece of a candidate is kept as it is: it is too short, or a header that awaits its 03. -/
theorem feed_of_proper_prefix {b y : Bytes} (hb : b <+: 0x10 :: 0x02 :: (y ++ [0x03]))
    (hne : b ≠ 0x10 :: 0x02 :: (y ++ [0x03])) (hy : 0x03 ∉ y) : feed [] b = ([], b) := by
  rcases Nat.lt_or_ge b.length 4 with h4 | h4
  · exact feed_of_short h4
  have hinner : b <+: 0x10 :: 0x02 :: y := (List.prefix_concat_iff.mp hb).resolve_left hne
  match b, hinner with
  | [], _ | [_], _ => simp at h4
  | _ :: _ :: x, hinner =>
    rw [List.cons_prefix_cons, List.cons_prefix_cons] at hinner
    obtain ⟨rfl, rfl, hx⟩ := hinner
    exact feed_of_awaiting (g := []) h4 noHeader_nil (fun h03 => hy (hx.subset h03))

theorem feedAll_of_flatten_eq_nil {chunks : List Bytes} (h : chunks.flatten = []) :
    feedAll [] chunks = ([], []) := by
  induction chunks with
  | nil => rfl
  | cons c cs ih =>
    obtain ⟨rfl, hcs⟩ := List.append_eq_nil_iff.mp h
    rw [feedAll, feed_nil, ih hcs, List.nil_append]

/-- R88 (a) from any buffer that holds a proper initial piece of the candidate: a feed that completes it yields it and
leaves nothing, any other one keeps all it has. -/
theorem feedAll_completes {rb y : Bytes} {chunks : List Bytes}
    (hraw : rb ++ chunks.flatten = 0x10 :: 0x02 :: (y ++ [0x03])) (hrb : rb ≠ 0x10 :: 0x02 :: (y ++ [0x03]))
    (hne : y ≠ []) (hy : 0x03 ∉ y) : feedAll rb chunks = ([0x10 :: 0x02 :: (y ++ [0x03])], []) := by
  induction chunks generalizing rb with
  | nil => exact absurd ((List.append_nil rb).symm.trans hraw) hrb
  | cons c cs ih =>
    rw [List.flatten_cons, ← List.append_assoc] at hraw
    rw [feedAll, feed_eq_feed_nil rb c]
    by_cases hdone : rb ++ c = 0x10 :: 0x02 :: (y ++ [0x03])
    · rw [hdone] at hraw ⊢
      have hwhole : feed [] (0x10 :: 0x02 :: (y ++ [0x03])) = ([0x10 :: 0x02 :: (y ++ [0x03])], []) :=
        feed_garbage_candidate noHeader_nil hne hy
      rw [hwhole, feedAll_of_flatten_eq_nil (List.self_eq_append_right.mp hraw.symm), List.append_nil]
    · rw [feed_of_proper_prefix ⟨cs.flatten, hraw⟩ hdone hy, ih hraw hdone, List.nil_append]

/-- Settles O13: before the first chunk the buffer is the empty initial piece of the frame. -/
theorem reassemblyUnderChunking : Obligations.ReassemblyUnderChunking := by
  intro raw f chunks h h03 hraw
  obtain ⟨y, rfl, hne, hy⟩ := exists_cut_of_valid h h03
  exact feedAll_completes hraw (List.cons_ne_nil _ _).symm hne hy

/-! ### The capacity of the buffer -/

theorem overCap_of_lt {chunk : Bytes} {s : State} {cap : Nat} (hcap : s.cfg.rbCap = some cap)
    (h : cap < s.rb.length + chunk.length) : overCap s chunk = true := by
  simp [overCap, hcap, h]

/-- Settles O17: the capacity decides between the two branches of RSM.FEED. -/
theorem rsmFeedRunsAlone : Obligations.RsmFeedRunsAlone := by
  intro chunk s
  refine ⟨?within, ?past⟩
  case within =>
    intro h
    exact if_neg (Bool.eq_false_iff.mp (overCap_eq_false_iff.mpr h))
  case past =>
    intro cap hcap h
    exact if_pos (overCap_of_lt hcap h)

end Sys2Proof.Machine

/-! The inputs outside the spec's meaning (R62, R74, R86, R114, R116): the refusing branch of each operation. -/

namespace Sys2Proof.Machine

theorem execRx_of_overCap {chunk : Bytes} {s : State} (hopen : s.connOpen = true) (h : overCap s chunk = true) :
    execRx chunk s = .refused .rbOverflow := by
  simp [execRx, hopen, h]

theorem execXchgResponse_of_no_match {f : Frame} {s : State} (h : matchesStep f s = false) :
    execXchgResponse f s = .refused .responseWithoutMatch := by
  cases hstep : currentStep s with
  | none => simp only [execXchgResponse, hstep]
  | some st =>
    have hne : f.command ≠ st.request.command := by simpa [matchesStep, hstep] using h
    simp only [execXchgResponse, hstep, if_neg hne]

theorem execXchgTimeout_of_no_timer {s : State} (h : s.xc.active = false ∨ s.xc.timerArmed = false) :
    execXchgTimeout s = .refused .timeoutWithoutTimer := by
  have hguard : (s.xc.active && s.xc.timerArmed) = false := Bool.and_eq_false_iff.mpr h
  simp [execXchgTimeout, hguard]

theorem execMotorGear_of_short {payload : Bytes} (s : State) (h : payload.length < 2) :
    execMotorGear payload s = .refused .gearPayloadShort := by
  match payload with
  | [] | [_] => rfl
  | _ :: _ :: _ => simp at h

theorem runWord_event_of_error {code : Byte} {args : EventArgs} {e : DecodeError} (s : State)
    (h : decodeEvent code args = .error e) : runWord (.event code args) s = .refused (.undecodable e) := by
  simp [runWord, h]

/-- Settles O60: the refusing branch of RX, XCHG.RESPONSE, XCHG.TIMEOUT, MOTOR.GEAR and the event decoder. -/
theorem inputsOutsideTheSpecAreRefused : Obligations.InputsOutsideTheSpecAreRefused := by
  refine ⟨?rx, fun _ _ => execXchgResponse_of_no_match, fun _ => execXchgTimeout_of_no_timer,
    fun _ s => execMotorGear_of_short s, ?event⟩
  case rx =>
    intro chunk s cap hcap h hopen
    exact execRx_of_overCap hopen (overCap_of_lt hcap h)
  case event =>
    intro s t code args e hf he
    rw [step_of_fetch_some hf, runWord_event_of_error t he]

end Sys2Proof.Machine

/-! The command dispatcher (R89 to R110): the rows of the two contexts as equations, DISP.DISPATCH and RX as the row
they run, and what a candidate and a chunk add to the output, to the display cache and to the exchange record. -/

namespace Sys2Proof.Machine

/-! ### The status light (R104) -/

/-- Settles O26: the three written-out codes are evaluated, every other code leaves the range test alone. -/
theorem lightOfStatusCode : Obligations.LightOfStatusCode := by
  intro code
  by_cases hred : code = 0x00
  · subst hred
    decide
  by_cases hgreen : code = 0x0B
  · subst hgreen
    decide
  by_cases hblue : (0x20 ≤ code.toNat ∧ code.toNat ≤ 0x2B) ∨ code = 0x50
  · have hlight : lightOf code = some .blue := by rw [lightOf, if_neg hred, if_neg hgreen, if_pos hblue]
    simp only [hlight, hred, hgreen, hblue]
    decide
  · have hlight : lightOf code = none := by rw [lightOf, if_neg hred, if_neg hgreen, if_neg hblue]
    simp only [hlight, hred, hgreen, hblue]
    decide

theorem showLight_of_some {code : Byte} {c : Colour} (s : State) (h : lightOf code = some c) :
    showLight code s = display (.light c) s := by
  simp [showLight, h]

theorem showLight_of_none {code : Byte} (s : State) (h : lightOf code = none) :
    showLight code s = raise .unknownStatus (.status code) s := by
  simp [showLight, h]

/-! ### The CONTROL rows (R91 to R97) -/

theorem sendAck_of_ok {s : State} (command : Byte) (payload : Bytes) (hopen : s.connOpen = true)
    (hans : nextAnswer s = .ok) :
    sendAck command payload s = (.ok, emit (.tx (encodeFrame command payload) .ok) (takeAnswer s)) := by
  simp [sendAck, write_open _ hopen, hans]

theorem sendAck_of_fail {s : State} (command : Byte) (payload : Bytes) (hopen : s.connOpen = true)
    (hans : nextAnswer s = .fail) :
    sendAck command payload s =
      (.fail, { takeAnswer s with
        out := s.out ++ [.tx (encodeFrame command payload) .fail, .warn .ack (.command command)] }) := by
  simp [sendAck, write_open _ hopen, hans, warn, emit]

/-- A row that is one DISP.ACK acks with its command and payload (R91). -/
theorem acksWith_of_sendAck {i : Bytes → Instr} {command : Byte} {payload : Cfg → Bytes}
    (h : ∀ p s, exec (i p) s = .next (sendAck command (payload s.cfg) s).2) : AcksWith i command payload := by
  intro p s hopen
  refine ⟨fun hans => ?_, fun hans => ?_⟩
  · rw [h, sendAck_of_ok _ _ hopen hans]
    rfl
  · rw [h, sendAck_of_fail _ _ hopen hans]

/-- Settles O18: each of the five rows is one DISP.ACK. -/
theorem controlRowsSendFixedAcks : Obligations.ControlRowsSendFixedAcks :=
  ⟨acksWith_of_sendAck fun _ _ => rfl, acksWith_of_sendAck fun _ _ => rfl, acksWith_of_sendAck fun _ _ => rfl,
    acksWith_of_sendAck fun _ _ => rfl, acksWith_of_sendAck fun _ _ => rfl⟩

/-- Everything CTRL.TELEMETRY can do: its ack, and the light after it when the write succeeded (R97). -/
theorem ctrlTelemetryAfter_cases (s : State) :
    ctrlTelemetryAfter s = (sendAck 0x21 (telemetryPayload (synTelemetry s.cfg)) s).2 ∨
      ctrlTelemetryAfter s =
        showLight s.cfg.synStatus (sendAck 0x21 (telemetryPayload (synTelemetry s.cfg)) s).2 := by
  rcases h : sendAck 0x21 (telemetryPayload (synTelemetry s.cfg)) s with ⟨_ | _, t⟩
  · exact .inr (by simp only [ctrlTelemetryAfter, Command.code, h])
  · exact .inl (by simp only [ctrlTelemetryAfter, Command.code, h])

theorem encodeFrame_synTelemetry (c : Cfg) :
    encodeFrame Command.telemetry.code (telemetryPayload (synTelemetry c)) = synFrame c := rfl

theorem ctrlTelemetryAfter_of_ok {s : State} (hopen : s.connOpen = true) (hans : nextAnswer s = .ok) :
    ctrlTelemetryAfter s = showLight s.cfg.synStatus (emit (.tx (synFrame s.cfg) .ok) (takeAnswer s)) := by
  simp only [ctrlTelemetryAfter, sendAck_of_ok _ _ hopen hans, encodeFrame_synTelemetry]

theorem ctrlTelemetryAfter_of_fail {s : State} (hopen : s.connOpen = true) (hans : nextAnswer s = .fail) :
    ctrlTelemetryAfter s =
      { takeAnswer s with out := s.out ++ [.tx (synFrame s.cfg) .fail, .warn .ack (.command 0x21)] } := by
  simp only [ctrlTelemetryAfter, sendAck_of_fail _ _ hopen hans, encodeFrame_synTelemetry]
  rfl

theorem exec_ctrlTelemetry (p : Bytes) (s : State) : exec (.ctrlTelemetry p) s = .next (ctrlTelemetryAfter s) := rfl

/-- Settles O19: the write's answer decides whether the light follows the synthesized status, the code decides how. -/
theorem controlTelemetryRow : Obligations.ControlTelemetryRow := by
  intro p s hopen
  refine ⟨?known, ?unknown, ?failed⟩
  case known =>
    intro c hans hlight
    rw [exec_ctrlTelemetry, ctrlTelemetryAfter_of_ok hopen hans, showLight_of_some _ hlight]
    simp [display, emit, Ds.apply]
  case unknown =>
    intro hans hlight
    rw [exec_ctrlTelemetry, ctrlTelemetryAfter_of_ok hopen hans, showLight_of_none _ hlight]
    simp [raise, emit]
  case failed =>
    intro hans
    rw [exec_ctrlTelemetry, ctrlTelemetryAfter_of_fail hopen hans]

/-! ### The MOTOR rows (R98 to R103) -/

theorem route_of_no_match {f : Frame} {s : State} (h : matchesStep f s = false) : route f s = s := by
  rcases route_cases f s with ⟨st, hst, hf, _⟩ | ⟨_, hr⟩
  · simp [matchesStep_iff.mpr ⟨st, hst, hf⟩] at h
  · exact hr

/-- On a frame that matches the current step ROUTE is XCHG.RESPONSE (R107). -/
theorem execXchgResponse_of_match {f : Frame} {s : State} (h : matchesStep f s = true) :
    execXchgResponse f s = .next (route f s) := by
  obtain ⟨st, hst, hf⟩ := matchesStep_iff.mp h
  simp [execXchgResponse, route, hst, hf]

/-- A row that ends with ROUTE and has not touched the exchange record before routes from there. -/
theorem routesFrom_of_route {i : Instr} {f : Frame} {s t : State} (h : exec i s = .next (route f t))
    (hxc : t.xc = s.xc) : RoutesFrom i f s t := by
  have hmatch := matchesStep_congr f hxc
  refine ⟨fun hno => ?_, fun hyes => ⟨?_, route f t, h⟩⟩
  · rw [h, route_of_no_match (hmatch.trans hno)]
  · exact h.trans (execXchgResponse_of_match (hmatch.trans hyes)).symm

/-- Settles O21: the three rows are ROUTE and nothing else. -/
theorem motorRowsWithoutDecode : Obligations.MotorRowsWithoutDecode := fun _ _ =>
  ⟨routesFrom_of_route rfl rfl, routesFrom_of_route rfl rfl, routesFrom_of_route rfl rfl⟩

/-- Settles O22: one display update, then ROUTE. -/
theorem motorGearRow : Obligations.MotorGearRow := fun _ _ _ _ => routesFrom_of_route rfl rfl

/-- Settles O23: one display update, then ROUTE. -/
theorem motorVersionRow : Obligations.MotorVersionRow := fun _ _ => routesFrom_of_route rfl rfl

theorem telemetryOf_of_short {p : Bytes} (h : p.length < 8) : telemetryOf p = none := by
  match p with
  | [] | [_] | [_, _] | [_, _, _] | [_, _, _, _] | [_, _, _, _, _] | [_, _, _, _, _, _] | [_, _, _, _, _, _, _] => rfl
  | _ :: _ :: _ :: _ :: _ :: _ :: _ :: _ :: _ =>
    simp only [List.length_cons] at h
    omega

theorem execMotorTelemetry_of_none {p : Bytes} (s : State) (h : telemetryOf p = none) :
    execMotorTelemetry p s = .next (raise .shortPayload (.payloadLength 0x21 p.length) s) := by
  simp only [execMotorTelemetry, h, Command.code]

theorem execMotorTelemetry_of_some {p : Bytes} {v : Telemetry} (s : State) (h : telemetryOf p = some v) :
    execMotorTelemetry p s = .next (route ⟨0x21, p⟩ (showTelemetry v s)) := by
  simp only [execMotorTelemetry, h, Command.code]

/-- Everything MOTOR.TELEMETRY can do (R103, R106). -/
theorem execMotorTelemetry_cases {p : Bytes} {s t : State} (h : execMotorTelemetry p s = .next t) :
    (t = raise .shortPayload (.payloadLength 0x21 p.length) s) ∨
      ∃ v, t = route ⟨0x21, p⟩ (showTelemetry v s) := by
  cases hv : telemetryOf p with
  | none =>
    rw [execMotorTelemetry_of_none s hv] at h
    cases h
    exact .inl rfl
  | some v =>
    rw [execMotorTelemetry_of_some s hv] at h
    cases h
    exact .inr ⟨v, rfl⟩

/-- The five fields of R103 written to the display cache. -/
def Ds.withTelemetry (d : Ds) (v : Telemetry) : Ds :=
  { d with
    status := some v.status
    speed := some v.speed
    voltage := some v.voltage
    temperature := some v.temperature
    power := some v.power }

/-- Their display events, in order. -/
def fieldEvents (v : Telemetry) : List OutEvent :=
  [.display (.status v.status), .display (.speed v.speed), .display (.voltage v.voltage),
    .display (.temperature v.temperature), .display (.power v.power)]

/-- MOTOR.TELEMETRY's display updates: the five fields, then the light (R103). -/
theorem showTelemetry_eq (v : Telemetry) (s : State) :
    showTelemetry v s =
      showLight v.status { s with ds := s.ds.withTelemetry v, out := s.out ++ fieldEvents v } := by
  simp [showTelemetry, display, emit, Ds.apply, Ds.withTelemetry, fieldEvents]

/-- Settles O24: the length decides whether the schema is read, the status code whether the light follows. -/
theorem motorTelemetryRow : Obligations.MotorTelemetryRow := by
  refine ⟨fun p s hp => execMotorTelemetry_of_none s (telemetryOf_of_short hp), ?_⟩
  intro p0 p1 p2 p3 p4 p5 p6 p7 rest s
  have hrow := execMotorTelemetry_of_some (p := p0 :: p1 :: p2 :: p3 :: p4 :: p5 :: p6 :: p7 :: rest) s rfl
  rw [showTelemetry_eq] at hrow
  refine ⟨?known, ?unknown⟩
  case known =>
    intro c hlight
    rw [showLight_of_some _ hlight] at hrow
    exact routesFrom_of_route hrow rfl
  case unknown =>
    intro hlight
    rw [showLight_of_none _ hlight] at hrow
    exact routesFrom_of_route hrow rfl

/-! ### DISP.DISPATCH and RX of one candidate (R90, R135, R136) -/

theorem exec_dispDispatch_row {ctx : Ctx} {s : State} (hctx : s.cfg.ctx = ctx) (c : Command) (p : Bytes) :
    exec (.dispDispatch ⟨c.code, p⟩) s = exec (frameRow ctx c p) s := by
  subst hctx
  exact execDispDispatch_eq_exec_frameRow s (Command.ofByte_code c)

/-- Settles O27: the six command bytes are the codes of the six commands. -/
theorem dispatchRunsTheRow : Obligations.DispatchRunsTheRow := by
  intro p s
  refine ⟨fun hctx => ?_, fun hctx => ?_⟩
  all_goals
    have hrow := fun c => exec_dispDispatch_row hctx c p
    exact ⟨hrow .stop, hrow .run, hrow .setSpeed, hrow .gear, hrow .version, hrow .telemetry⟩

theorem execRx_of_within {chunk : Bytes} {s : State} (hopen : s.connOpen = true)
    (hcap : ∀ cap, s.cfg.rbCap = some cap → s.rb.length + chunk.length ≤ cap) :
    execRx chunk s = processAll (feed s.rb chunk).1 { s with rb := (feed s.rb chunk).2 } := by
  simp [execRx, hopen, overCap_eq_false_iff.mpr hcap]

theorem processAll_singleton (raw : Bytes) (s : State) : processAll [raw] s = process raw s := by
  cases h : process raw s <;> simp [processAll, andThen, h]

/-- RX of a chunk that yields one candidate, a valid frame: its announcement, then its dispatch. -/
theorem execRx_of_frame {chunk raw : Bytes} {f : Frame} {s : State} (hopen : s.connOpen = true)
    (hcap : ∀ cap, s.cfg.rbCap = some cap → s.rb.length + chunk.length ≤ cap)
    (hfeed : (feed s.rb chunk).1 = [raw]) (hraw : decodeFrame raw = .ok f) :
    execRx chunk s = execDispDispatch f (emit (.frame f) { s with rb := (feed s.rb chunk).2 }) := by
  rw [execRx_of_within hopen hcap, hfeed, processAll_singleton, process_of_ok _ hraw]

/-- Settles O25: in the MOTOR context the row that drops the frame is run, with or without the announcement; the
CONTROL row does not mention its payload. -/
theorem shortTelemetryIsDropped : Obligations.ShortTelemetryIsDropped := by
  intro p s hp
  have hdrop : ∀ u : State, u.cfg.ctx = .motor → execDispDispatch ⟨0x21, p⟩ u =
      .next (raise .shortPayload (.payloadLength 0x21 p.length) u) := fun u hctx =>
    (exec_dispDispatch_row hctx .telemetry p).trans (execMotorTelemetry_of_none u (telemetryOf_of_short hp))
  refine ⟨hdrop s, ?received, fun _ => rfl⟩
  intro chunk raw hctx hopen hcap hfeed hraw
  refine (execRx_of_frame hopen hcap hfeed hraw).trans ((hdrop _ ?_).trans ?_)
  · exact hctx
  · simp [raise, emit]

/-- Settles O29: an unassigned command byte selects no row, with or without the announcement. -/
theorem unknownCommandIsDropped : Obligations.UnknownCommandIsDropped := by
  intro f s hmem
  have hdrop := fun u => execDispDispatch_of_unassigned (f := f) u (ofByte_eq_none_of_unassigned hmem)
  refine ⟨hdrop s, ?received⟩
  intro chunk raw hopen hcap hfeed hraw
  refine (execRx_of_frame hopen hcap hfeed hraw).trans ((hdrop _).trans ?_)
  simp [raise, emit]

/-! ### Completion of a dispatch (R74, R90, R150) -/

theorem showLight_ret (code : Byte) (s : State) : (showLight code s).ret = s.ret := by
  rcases showLight_cases code s with ⟨c, _, h⟩ | ⟨_, h⟩
  · rw [h, display_ret]
  · rw [h, raise_ret]

theorem showTelemetry_ret (v : Telemetry) (s : State) : (showTelemetry v s).ret = s.ret := by
  rw [showTelemetry_eq, showLight_ret]

theorem ctrlTelemetryAfter_ret (s : State) : (ctrlTelemetryAfter s).ret = s.ret := by
  have hack := (sendAck_frame 0x21 (telemetryPayload (synTelemetry s.cfg)) s).1.ret
  rcases ctrlTelemetryAfter_cases s with h | h
  · rw [h, hack]
  · rw [h, showLight_ret, hack]

theorem execMotorTelemetry_completes (p : Bytes) (s : State) :
    ∃ t, execMotorTelemetry p s = .next t ∧ t.ret = s.ret := by
  cases h : telemetryOf p with
  | none => exact ⟨_, execMotorTelemetry_of_none s h, rfl⟩
  | some v => exact ⟨_, execMotorTelemetry_of_some s h, (route_frame _ _).ret.trans (showTelemetry_ret v s)⟩

theorem execMotorGear_completes {p : Bytes} (s : State) (hp : 2 ≤ p.length) :
    ∃ t, execMotorGear p s = .next t ∧ t.ret = s.ret := by
  match p with
  | [] | [_] => simp at hp
  | a :: b :: rest => exact ⟨_, rfl, (route_frame _ _).ret⟩

/-- Every row completes on a decoded frame and leaves `ret` alone; MOTOR.GEAR reads the two bytes R74 provides. -/
theorem exec_frameRow_completes (ctx : Ctx) (c : Command) {p : Bytes} (s : State) (hp : 2 ≤ p.length) :
    ∃ t, exec (frameRow ctx c p) s = .next t ∧ t.ret = s.ret := by
  cases ctx with
  | control =>
    cases c with
    | stop | run | setSpeed | gear | version => exact ⟨_, rfl, (sendAck_frame _ _ s).1.ret⟩
    | telemetry => exact ⟨_, rfl, ctrlTelemetryAfter_ret s⟩
  | motor =>
    cases c with
    | stop | run | setSpeed => exact ⟨_, rfl, (route_frame _ s).ret⟩
    | gear => exact execMotorGear_completes s hp
    | version => exact ⟨_, rfl, (route_frame _ _).ret⟩
    | telemetry => exact execMotorTelemetry_completes p s

theorem execDispDispatch_completes {f : Frame} (s : State) (hp : 2 ≤ f.payload.length) :
    ∃ t, execDispDispatch f s = .next t ∧ t.ret = s.ret := by
  cases hc : Command.ofByte f.command with
  | none => exact ⟨_, execDispDispatch_of_unassigned s hc, rfl⟩
  | some c =>
    rw [execDispDispatch_eq_exec_frameRow s hc]
    exact exec_frameRow_completes _ c s hp

theorem exec_control_row_quiet {c : Command} {p : Bytes} {s t : State}
    (h : exec (frameRow .control c p) s = .next t) : QuietFrame s t := by
  cases c <;> exact exec_quiet h rfl rfl rfl

theorem execDispDispatch_control_quiet {f : Frame} {s t : State} (hctx : s.cfg.ctx = .control)
    (h : execDispDispatch f s = .next t) : QuietFrame s t := by
  cases hc : Command.ofByte f.command with
  | none =>
    rw [execDispDispatch_of_unassigned s hc] at h
    cases h
    exact raise_quiet _ _ s
  | some c =>
    rw [execDispDispatch_eq_exec_frameRow s hc, hctx] at h
    exact exec_control_row_quiet h

/-- Settles O28: every row completes, and what a row can do is `RowEffect`, in the CONTROL context `QuietFrame`. -/
theorem dispatchCompletes : Obligations.DispatchCompletes := by
  intro f s hp
  obtain ⟨t, ht, hret⟩ := execDispDispatch_completes s hp
  have heff := execDispDispatch_effect ht
  exact ⟨t, ht, heff.cfg, heff.connOpen, heff.rb, hret, heff.inbox,
    fun hctx => (execDispDispatch_control_quiet hctx ht).xc⟩

/-! ### Telemetry from CONTROL to MOTOR (R35, R51, R97, R103) -/

theorem be16_hi8_lo8 (v : U16) : be16 (hi8 v) (lo8 v) = v := by
  apply BitVec.eq_of_toNat_eq
  simp only [be16, hi8, lo8, BitVec.toNat_ofNat]
  omega

/-- Reading the telemetry schema undoes writing it. -/
theorem telemetryOf_telemetryPayload (v : Telemetry) : telemetryOf (telemetryPayload v) = some v := by
  simp only [telemetryPayload, telemetryOf, be16_hi8_lo8]

/-- The display cache holds the five values. -/
structure Shows (d : Ds) (v : Telemetry) : Prop where
  status : d.status = some v.status
  speed : d.speed = some v.speed
  voltage : d.voltage = some v.voltage
  temperature : d.temperature = some v.temperature
  power : d.power = some v.power

theorem showLight_ds (code : Byte) (s : State) :
    (showLight code s).ds = { s.ds with light := (showLight code s).ds.light } := by
  rcases showLight_cases code s with ⟨c, _, h⟩ | ⟨_, h⟩ <;> rw [h] <;> rfl

theorem showTelemetry_shows (v : Telemetry) (s : State) : Shows (showTelemetry v s).ds v := by
  rw [showTelemetry_eq, showLight_ds]
  exact ⟨rfl, rfl, rfl, rfl, rfl⟩

/-- MOTOR.TELEMETRY of a written-out schema shows the values it was written from, whatever ROUTE does after. -/
theorem execMotorTelemetry_shows (v : Telemetry) (s : State) :
    ∃ t, execMotorTelemetry (telemetryPayload v) s = .next t ∧ Shows t.ds v := by
  refine ⟨_, execMotorTelemetry_of_some s (telemetryOf_telemetryPayload v), ?_⟩
  rw [(route_frame _ _).ds]
  exact showTelemetry_shows v s

theorem decodeFrame_synFrame (c : Cfg) :
    decodeFrame (synFrame c) = .ok ⟨Command.telemetry.code, telemetryPayload (synTelemetry c)⟩ :=
  decodeFrame_encodeFrame _ (Nat.le_add_left 2 6)

/-- The first event of CTRL.TELEMETRY on an open connection is its transmission, whatever the answer. -/
theorem ctrlTelemetryAfter_out {s : State} (hopen : s.connOpen = true) :
    ∃ rest, (ctrlTelemetryAfter s).out = s.out ++ .tx (synFrame s.cfg) (nextAnswer s) :: rest := by
  cases hans : nextAnswer s with
  | fail => exact ⟨_, by rw [ctrlTelemetryAfter_of_fail hopen hans]⟩
  | ok =>
    rw [ctrlTelemetryAfter_of_ok hopen hans]
    rcases showLight_cases s.cfg.synStatus (emit (.tx (synFrame s.cfg) .ok) (takeAnswer s))
      with ⟨c, _, h⟩ | ⟨_, h⟩ <;> rw [h] <;> exact ⟨_, List.append_assoc _ _ _⟩

/-- Settles O30: the codec and the schema are each undone on the receiving side. -/
theorem synthesizedTelemetryDecodesBack : Obligations.SynthesizedTelemetryDecodesBack := by
  refine ⟨?overTheLink, ?byItself⟩
  case overTheLink =>
    intro q a s hopen hctx
    obtain ⟨rest, hout⟩ := ctrlTelemetryAfter_out hopen
    obtain ⟨t, ht, hshow⟩ := execMotorTelemetry_shows (synTelemetry a.cfg) s
    exact ⟨_, _, rest, _, t, exec_ctrlTelemetry q a, hout, decodeFrame_synFrame a.cfg,
      (exec_dispDispatch_row hctx .telemetry _).trans ht, hshow.status, hshow.speed, hshow.voltage,
      hshow.temperature, hshow.power⟩
  case byItself =>
    intro c s
    obtain ⟨t, ht, hshow⟩ := execMotorTelemetry_shows (synTelemetry c) s
    exact ⟨t, ht, hshow.status, hshow.speed, hshow.voltage, hshow.temperature, hshow.power⟩

/-! ### The transmissions of a received chunk (R89, R109, R110) -/

/-- A quiet operation that adds `n` transmissions to the output. -/
structure Sends (n : Nat) (s t : State) : Prop extends QuietFrame s t where
  sent : t.out.countP IsTx = s.out.countP IsTx + n

theorem Sends.refl (s : State) : Sends 0 s s := ⟨⟨⟨rfl, rfl, rfl, rfl⟩, rfl⟩, rfl⟩

theorem Sends.trans {m n : Nat} {s t u : State} (h : Sends m s t) (k : Sends n t u) : Sends (m + n) s u :=
  ⟨h.toQuietFrame.trans k.toQuietFrame, by rw [k.sent, h.sent, Nat.add_assoc]⟩

theorem emit_sends {e : OutEvent} (he : IsTx e = false) (s : State) : Sends 0 s (emit e s) :=
  ⟨emit_quiet e s, by simp [he]⟩

theorem raise_sends (c : ErrorClass) (d : DiagInfo) (s : State) : Sends 0 s (raise c d s) := emit_sends rfl s

theorem display_sends (u : DisplayUpdate) (s : State) : Sends 0 s (display u s) :=
  ⟨display_quiet u s, by simp [IsTx]⟩

theorem showLight_sends (code : Byte) (s : State) : Sends 0 s (showLight code s) := by
  rcases showLight_cases code s with ⟨c, _, h⟩ | ⟨_, h⟩
  · rw [h]
    exact display_sends _ s
  · rw [h]
    exact emit_sends rfl s

theorem showTelemetry_sends (v : Telemetry) (s : State) : Sends 0 s (showTelemetry v s) := by
  have hfields : Sends 0 s { s with ds := s.ds.withTelemetry v, out := s.out ++ fieldEvents v } :=
    ⟨⟨⟨rfl, rfl, rfl, rfl⟩, rfl⟩, by simp [fieldEvents, IsTx]⟩
  rw [showTelemetry_eq]
  exact hfields.trans (showLight_sends _ _)

/-- DISP.ACK on an open connection is one transmission, failed or not (R91). -/
theorem sendAck_sends {s : State} (command : Byte) (payload : Bytes) (hopen : s.connOpen = true) :
    Sends 1 s (sendAck command payload s).2 := by
  refine ⟨sendAck_quiet command payload s, ?_⟩
  cases hans : nextAnswer s with
  | ok => simp [sendAck_of_ok _ _ hopen hans, IsTx]
  | fail => simp [sendAck_of_fail _ _ hopen hans, List.countP_cons, IsTx]

theorem ctrlTelemetryAfter_sends {s : State} (hopen : s.connOpen = true) : Sends 1 s (ctrlTelemetryAfter s) := by
  have hack := sendAck_sends 0x21 (telemetryPayload (synTelemetry s.cfg)) hopen
  rcases ctrlTelemetryAfter_cases s with h | h
  · rw [h]
    exact hack
  · rw [h]
    exact hack.trans (showLight_sends _ _)

theorem exec_control_row_sends {c : Command} {p : Bytes} {s t : State} (hopen : s.connOpen = true)
    (h : exec (frameRow .control c p) s = .next t) : Sends 1 s t := by
  cases c with
  | stop | run | setSpeed | gear | version =>
    cases h
    exact sendAck_sends _ _ hopen
  | telemetry =>
    cases h
    exact ctrlTelemetryAfter_sends hopen

/-- Everything PROCESS can do (R105, R136): the diagnostic of a candidate that fails decoding, the announcement and
the diagnostic of an unassigned command, or the announcement and the row of a table command. -/
theorem process_cases {raw : Bytes} {s t : State} (h : process raw s = .next t) :
    (isTableFrame raw = false ∧ ∃ e, t = raise (errorClassOf e) (.candidate raw) s) ∨
    (isTableFrame raw = false ∧ ∃ f, t = raise .unknownCommand (.command f.command) (emit (.frame f) s)) ∨
    (isTableFrame raw = true ∧ ∃ f c, exec (frameRow s.cfg.ctx c f.payload) (emit (.frame f) s) = .next t) := by
  cases hd : decodeFrame raw with
  | error e =>
    rw [process_of_error s hd] at h
    cases h
    exact .inl ⟨by simp [isTableFrame, hd], e, rfl⟩
  | ok f =>
    cases hc : Command.ofByte f.command with
    | none =>
      rw [process_of_unassigned s hd hc] at h
      cases h
      exact .inr (.inl ⟨by simp [isTableFrame, hd, hc], f, rfl⟩)
    | some c =>
      rw [process_of_ok s hd, execDispDispatch_eq_exec_frameRow _ hc, emit_cfg] at h
      exact .inr (.inr ⟨by simp [isTableFrame, hd, hc], f, c, h⟩)

theorem process_control_sends {raw : Bytes} {s t : State} (hctx : s.cfg.ctx = .control) (hopen : s.connOpen = true)
    (h : process raw s = .next t) : Sends ([raw].countP isTableFrame) s t := by
  rcases process_cases h with ⟨hraw, e, rfl⟩ | ⟨hraw, f, rfl⟩ | ⟨hraw, f, c, hrow⟩
  · simpa [hraw] using raise_sends _ _ s
  · simpa [hraw] using (emit_sends rfl s).trans (raise_sends _ _ _)
  · rw [hctx] at hrow
    simpa [hraw] using (emit_sends rfl s).trans (exec_control_row_sends hopen hrow)

/-- The transmissions of a list of candidates are counted one candidate at a time. -/
theorem processAll_control_sends {cands : List Bytes} {s t : State} (hctx : s.cfg.ctx = .control)
    (hopen : s.connOpen = true) (h : processAll cands s = .next t) : Sends (cands.countP isTableFrame) s t := by
  induction cands generalizing s with
  | nil =>
    cases h
    exact .refl _
  | cons raw rest ih =>
    obtain ⟨u, hu, hrest⟩ := andThen_next h
    have hraw := process_control_sends hctx hopen hu
    have htail := ih (hraw.cfg ▸ hctx) (hraw.connOpen.trans hopen) hrest
    have hsum := hraw.trans htail
    rwa [← List.countP_append] at hsum

/-- The two display caches differ in the light at most. -/
def SameButLight (d e : Ds) : Prop := e = { d with light := e.light }

theorem SameButLight.refl (d : Ds) : SameButLight d d := rfl

theorem SameButLight.trans {d e g : Ds} (h : SameButLight d e) (k : SameButLight e g) : SameButLight d g :=
  Eq.trans k (congrArg (fun x : Ds => { x with light := g.light }) h)

theorem ctrlTelemetryAfter_sameButLight (s : State) : SameButLight s.ds (ctrlTelemetryAfter s).ds := by
  have hack := (sendAck_frame 0x21 (telemetryPayload (synTelemetry s.cfg)) s).1.ds
  rcases ctrlTelemetryAfter_cases s with h | h
  · rw [h, hack]
    exact .refl _
  · rw [h, ← hack]
    exact showLight_ds _ _

theorem exec_control_row_sameButLight {c : Command} {p : Bytes} {s t : State}
    (h : exec (frameRow .control c p) s = .next t) : SameButLight s.ds t.ds := by
  cases c with
  | stop | run | setSpeed | gear | version =>
    rw [exec_ds h rfl]
    exact .refl _
  | telemetry =>
    cases h
    exact ctrlTelemetryAfter_sameButLight s

theorem process_control_sameButLight {raw : Bytes} {s t : State} (hctx : s.cfg.ctx = .control)
    (h : process raw s = .next t) : SameButLight s.ds t.ds := by
  rcases process_cases h with ⟨_, e, rfl⟩ | ⟨_, f, rfl⟩ | ⟨_, f, c, hrow⟩
  · exact .refl _
  · exact .refl _
  · rw [hctx] at hrow
    exact exec_control_row_sameButLight (s := emit (.frame f) s) hrow

theorem processAll_control_sameButLight {cands : List Bytes} {s t : State} (hctx : s.cfg.ctx = .control)
    (h : processAll cands s = .next t) : SameButLight s.ds t.ds :=
  (processAll_induction (P := fun u => u.cfg.ctx = .control ∧ SameButLight s.ds u.ds)
    (fun _ _ _ hp hu => ⟨(process_effect hp).cfg ▸ hu.1, hu.2.trans (process_control_sameButLight hu.1 hp)⟩) h
    ⟨hctx, .refl _⟩).2

/-- RX on an open connection, when it answers a next state, processed the candidates (R135). -/
theorem execRx_open_next {chunk : Bytes} {s t : State} (hopen : s.connOpen = true) (h : execRx chunk s = .next t) :
    processAll (feed s.rb chunk).1 { s with rb := (feed s.rb chunk).2 } = .next t := by
  cases hcap : overCap s chunk with
  | true => simp [execRx_of_overCap hopen hcap] at h
  | false => rwa [execRx_of_within hopen (overCap_eq_false_iff.mp hcap)] at h

/-- Settles O46: one ack per candidate that has a row, and a CONTROL row writes the light at most. -/
theorem controlAnswersEachTableFrameOnce : Obligations.ControlAnswersEachTableFrameOnce := by
  intro chunk s t hctx hopen h
  have hp := execRx_open_next hopen h
  have hsends := processAll_control_sends (s := { s with rb := (feed s.rb chunk).2 }) hctx hopen hp
  have hds := processAll_control_sameButLight (s := { s with rb := (feed s.rb chunk).2 }) hctx hp
  exact ⟨hsends.xc, hds, hsends.sent⟩

/-! ### The display cache and its events (R7, R108) -/

/-- The output grew, and the new events replayed on the old display cache give the new one. -/
def Replays (s t : State) : Prop := ∃ new, t.out = s.out ++ new ∧ t.ds = replay s.ds new

theorem replay_append (d : Ds) (a b : List OutEvent) : replay d (a ++ b) = replay (replay d a) b :=
  List.foldl_append

theorem Replays.of_eq {s t : State} (hout : t.out = s.out) (hds : t.ds = s.ds) : Replays s t :=
  ⟨[], by rw [hout, List.append_nil], hds⟩

theorem Replays.refl (s : State) : Replays s s := .of_eq rfl rfl

theorem Replays.trans {s t u : State} (h : Replays s t) (k : Replays t u) : Replays s u := by
  obtain ⟨a, hout, hds⟩ := h
  obtain ⟨b, kout, kds⟩ := k
  exact ⟨a ++ b, by rw [kout, hout, List.append_assoc], by rw [kds, hds, replay_append]⟩

theorem display_replays (u : DisplayUpdate) (s : State) : Replays s (display u s) := ⟨[.display u], rfl, rfl⟩

/-- An event that is no display event replays to nothing. -/
theorem emit_replays {e : OutEvent} (he : ∀ d, replay d [e] = d) (s : State) : Replays s (emit e s) :=
  ⟨[e], rfl, (he s.ds).symm⟩

theorem raise_replays (c : ErrorClass) (d : DiagInfo) (s : State) : Replays s (raise c d s) :=
  emit_replays (fun _ => rfl) s

theorem warn_replays (o : TransportOp) (d : WarnDetail) (s : State) : Replays s (warn o d s) :=
  emit_replays (fun _ => rfl) s

/-- A transmission on an open connection and the warning that may follow it (R134). -/
theorem tx_replays (b : Bytes) (r : IoResult) (s : State) : Replays s (emit (.tx b r) (takeAnswer s)) :=
  emit_replays (fun _ => rfl) (takeAnswer s)

theorem tx_warn_replays (b : Bytes) (r : IoResult) (o : TransportOp) (d : WarnDetail) (s : State) :
    Replays s (warn o d (emit (.tx b r) (takeAnswer s))) :=
  (tx_replays b r s).trans (warn_replays o d _)

theorem showLight_replays (code : Byte) (s : State) : Replays s (showLight code s) := by
  rcases showLight_cases code s with ⟨c, _, h⟩ | ⟨_, h⟩
  · rw [h]
    exact display_replays _ s
  · rw [h]
    exact raise_replays _ _ s

theorem showTelemetry_replays (v : Telemetry) (s : State) : Replays s (showTelemetry v s) := by
  have hfields : Replays s { s with ds := s.ds.withTelemetry v, out := s.out ++ fieldEvents v } :=
    ⟨fieldEvents v, rfl, rfl⟩
  rw [showTelemetry_eq]
  exact hfields.trans (showLight_replays _ _)

theorem sendAck_replays (command : Byte) (payload : Bytes) (s : State) :
    Replays s (sendAck command payload s).2 := by
  rcases sendAck_cases command payload s with ⟨_, _, h⟩ | ⟨_, _, h⟩ | ⟨_, h⟩ <;> rw [h]
  · exact tx_replays _ _ s
  · exact tx_warn_replays _ _ _ _ s
  · exact warn_replays _ _ s

theorem ctrlTelemetryAfter_replays (s : State) : Replays s (ctrlTelemetryAfter s) := by
  have hack := sendAck_replays 0x21 (telemetryPayload (synTelemetry s.cfg)) s
  rcases ctrlTelemetryAfter_cases s with h | h <;> rw [h]
  · exact hack
  · exact hack.trans (showLight_replays _ _)

theorem sendAfter_replays (command : Byte) (payload : Bytes) (s : State) :
    Replays s (sendAfter command payload s) := by
  rcases write_cases (encodeFrame command payload) s with ⟨_, hw⟩ | ⟨_, hw⟩
  · cases hans : nextAnswer s with
    | ok =>
      simp only [sendAfter, hw, hans]
      exact tx_replays _ _ s
    | fail =>
      simp only [sendAfter, hw, hans]
      exact tx_warn_replays _ _ _ _ s
  · simp only [sendAfter, hw]
    exact warn_replays _ _ s

theorem execConnSend_replays {command : Byte} {payload : Bytes} {s t : State}
    (h : execConnSend command payload s = .next t) : Replays s t := by
  unfold execConnSend at h
  split at h <;> cases h
  · exact warn_replays _ _ s
  · exact sendAfter_replays command payload s

theorem openAfter_replays (result : IoResult) (s : State) : Replays s (openAfter result s) := by
  cases hopen : s.connOpen with
  | true =>
    simp only [openAfter, hopen]
    exact warn_replays _ _ s
  | false =>
    cases result with
    | fail =>
      simp only [openAfter, hopen]
      exact warn_replays _ _ s
    | ok => exact .of_eq (by simp [openAfter, hopen]) (by simp [openAfter, hopen])

theorem sendStep_replays (st : ExchangeStep) (s : State) : Replays s (sendStep st s) := by
  rcases sendStep_cases st s with ⟨_, _, h⟩ | ⟨_, _, h⟩ | ⟨_, h⟩ <;> rw [h]
  · exact tx_replays _ _ s
  · exact tx_warn_replays _ _ _ _ s
  · exact warn_replays _ _ s

theorem advance_replays (timedOut : Bool) (s : State) : Replays s (advance timedOut s) := by
  rcases advance_cases timedOut s with ⟨st, _, h⟩ | ⟨_, h⟩ <;> rw [h]
  · exact sendStep_replays st { s with xc := { s.xc with cursor := s.xc.cursor + 1 } }
  · exact emit_replays (e := .done timedOut) (fun _ => rfl) s

theorem resolveStep_replays (st : ExchangeStep) (f : Frame) (s : State) : Replays s (resolveStep st f s) :=
  have hnotice : Replays s (disarm (emit (.handler s.xc.cursor st.handler f) s)) :=
    emit_replays (e := .handler s.xc.cursor st.handler f) (fun _ => rfl) s
  hnotice.trans (advance_replays _ _)

theorem timeOutStep_replays (s : State) : Replays s (timeOutStep s) :=
  have hdiag : Replays s (disarm (raise .exchangeTimeout (.stepIndex s.xc.cursor) s)) := raise_replays _ _ s
  hdiag.trans (advance_replays _ _)

theorem route_replays (f : Frame) (s : State) : Replays s (route f s) := by
  rcases route_cases f s with ⟨st, _, _, h⟩ | ⟨_, h⟩ <;> rw [h]
  · exact resolveStep_replays st f s
  · exact .refl s

theorem tickAfter_replays (s : State) : Replays s (tickAfter s) := by
  rcases tickAfter_cases s with h | h | ⟨_, _, h⟩ <;> rw [h]
  · exact .refl s
  · exact timeOutStep_replays s
  · exact .of_eq rfl rfl

theorem startExchange_replays (first : ExchangeStep) (steps : List ExchangeStep) (s : State) :
    Replays s (startExchange first steps s) := by
  rcases startExchange_cases first steps s with ⟨_, x, _, h⟩ | ⟨_, armed, rem, h⟩ <;> rw [h]
  · exact warn_replays _ _ { s with xc := x }
  · exact sendStep_replays first { s with xc := ⟨true, steps, 0, armed, rem⟩ }

/-- A MOTOR row transmits nothing itself and logs its display updates; what is left of it is ROUTE (R98 to R103). -/
theorem exec_motor_row_cases {c : Command} {p : Bytes} {s t : State} (h : exec (frameRow .motor c p) s = .next t) :
    ∃ u, Sends 0 s u ∧ Replays s u ∧ (t = u ∨ ∃ f, t = route f u) := by
  cases c with
  | stop | run | setSpeed =>
    cases h
    exact ⟨s, .refl s, .refl s, .inr ⟨_, rfl⟩⟩
  | gear =>
    obtain ⟨a, b, rfl⟩ := execMotorGear_next h
    exact ⟨_, display_sends _ s, display_replays _ s, .inr ⟨_, rfl⟩⟩
  | version =>
    cases h
    exact ⟨_, display_sends _ s, display_replays _ s, .inr ⟨_, rfl⟩⟩
  | telemetry =>
    rcases execMotorTelemetry_cases h with rfl | ⟨v, rfl⟩
    · exact ⟨_, raise_sends _ _ s, raise_replays _ _ s, .inl rfl⟩
    · exact ⟨_, showTelemetry_sends v s, showTelemetry_replays v s, .inr ⟨_, rfl⟩⟩

theorem exec_frameRow_replays {ctx : Ctx} {c : Command} {p : Bytes} {s t : State}
    (h : exec (frameRow ctx c p) s = .next t) : Replays s t := by
  cases ctx with
  | control =>
    cases c with
    | stop | run | setSpeed | gear | version =>
      cases h
      exact sendAck_replays _ _ s
    | telemetry =>
      cases h
      exact ctrlTelemetryAfter_replays s
  | motor =>
    obtain ⟨u, _, hu, rfl | ⟨f, rfl⟩⟩ := exec_motor_row_cases h
    · exact hu
    · exact hu.trans (route_replays f u)

theorem execDispDispatch_replays {f : Frame} {s t : State} (h : execDispDispatch f s = .next t) : Replays s t := by
  cases hc : Command.ofByte f.command with
  | none =>
    rw [execDispDispatch_of_unassigned s hc] at h
    cases h
    exact raise_replays _ _ s
  | some c =>
    rw [execDispDispatch_eq_exec_frameRow s hc] at h
    exact exec_frameRow_replays h

theorem process_replays {raw : Bytes} {s t : State} (h : process raw s = .next t) : Replays s t := by
  have hframe := fun f => emit_replays (e := .frame f) (fun _ => rfl) s
  rcases process_cases h with ⟨_, e, rfl⟩ | ⟨_, f, rfl⟩ | ⟨_, f, c, hrow⟩
  · exact raise_replays _ _ s
  · exact (hframe f).trans (raise_replays _ _ _)
  · exact (hframe f).trans (exec_frameRow_replays hrow)

theorem execRx_replays {chunk : Bytes} {s t : State} (h : execRx chunk s = .next t) : Replays s t := by
  rcases execRx_cases h with rfl | ⟨_, _, hp⟩
  · exact .refl _
  · exact processAll_induction (P := Replays s) (fun _ _ _ h1 hu => hu.trans (process_replays h1)) hp
      (.of_eq rfl rfl)

/-- Settles O54: a FRAME row by its context, every EVENT row by what its operation emits. -/
theorem displayEventsReplayTheCache : Obligations.DisplayEventsReplayTheCache := by
  intro i s t h hreset
  cases hrow : i.context with
  | some ctx =>
    obtain ⟨c, p, rfl⟩ := Instr.eq_frameRow_of_context hrow
    exact exec_frameRow_replays h
  | none =>
    cases i with
    | reset _ => cases hreset
    | connOpen _ _ result =>
      cases h
      exact openAfter_replays result s
    | connClose => rcases execConnClose_cases h with rfl | rfl <;> exact Replays.of_eq rfl rfl
    | rx _ => exact execRx_replays h
    | connSend _ _ => exact execConnSend_replays h
    | xchgStart steps =>
      obtain ⟨_, _, _, first, _, _, rfl⟩ := execXchgStart_next h
      exact startExchange_replays first steps s
    | tick =>
      cases h
      exact tickAfter_replays s
    | cksumCompute _ | codecEncode _ _ | xchgCancel =>
      cases h
      exact Replays.of_eq rfl rfl
    | codecDecode _ =>
      obtain ⟨v, rfl⟩ := execCodecDecode_next h
      exact Replays.of_eq rfl rfl
    | rsmFeed _ =>
      rw [execRsmFeed_next h]
      exact Replays.of_eq rfl rfl
    | dispDispatch _ => exact execDispDispatch_replays h
    | xchgResponse f =>
      obtain ⟨st, rfl⟩ := execXchgResponse_next h
      exact resolveStep_replays st f s
    | xchgTimeout =>
      rw [execXchgTimeout_next h]
      exact timeOutStep_replays s
    | _ => cases hrow

/-! ### The MOTOR context without an exchange (R89, R109) -/

/-- With no exchange in flight no frame matches a step (R114). -/
theorem route_of_inactive {s : State} (f : Frame) (h : s.xc.active = false) : route f s = s :=
  route_of_no_match (by simp [matchesStep, currentStep, h])

theorem exec_motor_row_idle_sends {c : Command} {p : Bytes} {s t : State} (hidle : s.xc.active = false)
    (h : exec (frameRow .motor c p) s = .next t) : Sends 0 s t := by
  obtain ⟨u, hu, _, rfl | ⟨f, rfl⟩⟩ := exec_motor_row_cases h
  · exact hu
  · rw [route_of_inactive f (hu.xc ▸ hidle)]
    exact hu

theorem process_motor_idle_sends {raw : Bytes} {s t : State} (hctx : s.cfg.ctx = .motor)
    (hidle : s.xc.active = false) (h : process raw s = .next t) : Sends 0 s t := by
  rcases process_cases h with ⟨_, e, rfl⟩ | ⟨_, f, rfl⟩ | ⟨_, f, c, hrow⟩
  · exact raise_sends _ _ s
  · exact (emit_sends rfl s).trans (raise_sends _ _ _)
  · rw [hctx] at hrow
    exact (emit_sends rfl s).trans (exec_motor_row_idle_sends hidle hrow)

/-- Settles O47: no candidate starts an exchange, so none finds one to answer. -/
theorem idleMotorNeverTransmitsOnReceive : Obligations.IdleMotorNeverTransmitsOnReceive := by
  intro chunk s t hctx hidle h
  rcases execRx_cases h with rfl | ⟨_, _, hp⟩
  · exact ⟨rfl, rfl⟩
  · have hsends := processAll_induction (P := Sends 0 { s with rb := (feed s.rb chunk).2 })
      (fun _ _ _ h1 hu => hu.trans (process_motor_idle_sends (hu.cfg ▸ hctx) (hu.xc ▸ hidle) h1)) hp (.refl _)
    exact ⟨hsends.xc, hsends.sent⟩

end Sys2Proof.Machine

/-! The sequenced exchange (R111 to R126): SEND_STEP and ADVANCE as equations, the branches of XCHG.START and of TICK,
and runs of ticks as iterations of `tickAfter`; then the obligations on starting, advancing, timing out and
cancelling. -/

namespace Sys2Proof.Machine

/-! ### XCHG.START (R112, R119, R126) -/

/-- SEND_STEP on an open connection whose write fails (R113, R125). -/
theorem sendStep_of_fail {s : State} (st : ExchangeStep) (hopen : s.connOpen = true) (hans : nextAnswer s = .fail) :
    sendStep st s =
      { takeAnswer s with
        xc := Xc.idle
        out := s.out ++ [.tx (encodeFrame st.request.command st.request.payload) .fail,
          .warn .exchangeStep (.stepIndex s.xc.cursor)] } := by
  simp [sendStep, write_open _ hopen, hans, cancelExchange, warn, emit]

/-- XCHG.START on an open connection whose write fails: no exchange is left (R112, R125). -/
theorem startExchange_of_fail {s : State} (first : ExchangeStep) (steps : List ExchangeStep)
    (hopen : s.connOpen = true) (hans : nextAnswer s = .fail) :
    startExchange first steps s =
      { takeAnswer s with
        xc := Xc.idle
        out := s.out ++ [.tx (encodeFrame first.request.command first.request.payload) .fail,
          .warn .exchangeStep (.stepIndex 0)] } := by
  rcases startExchange_cases first steps s with ⟨hclosed, _⟩ | ⟨_, armed, rem, h⟩
  · simp [hopen] at hclosed
  · rw [h, sendStep_of_fail (s := { s with xc := ⟨true, steps, 0, armed, rem⟩ }) first hopen hans]
    rfl

/-- XCHG.START on a closed connection: a running exchange is cancelled all the same (R112, R119). -/
theorem startExchange_of_closed {s : State} (first : ExchangeStep) (steps : List ExchangeStep)
    (hclosed : s.connOpen = false) :
    startExchange first steps s =
      { s with
        xc := if s.xc.active then Xc.idle else s.xc
        out := s.out ++ [.warn .start .portClosed] } := by
  cases hactive : s.xc.active <;> simp [startExchange, hactive, hclosed, cancelExchange, warn, emit]

/-- Settles O31: the preconditions hold, so the body runs; the connection and the write's answer decide its end. -/
theorem xchgStartSendsTheFirstStep : Obligations.XchgStartSendsTheFirstStep := by
  intro first rest s hctx hmax htimeouts
  have hbody : exec (.xchgStart (first :: rest)) s = .next (startExchange first (first :: rest) s) :=
    execXchgStart_of_preconditions hctx (tooManySteps_eq_false_iff.mpr hmax) htimeouts
  rw [hbody]
  exact ⟨fun hopen hans => congrArg _ (startExchange_of_ok first _ hopen hans),
    fun hopen hans => congrArg _ (startExchange_of_fail first _ hopen hans),
    fun hclosed => congrArg _ (startExchange_of_closed first _ hclosed)⟩

theorem execXchgStart_of_control {s : State} (steps : List ExchangeStep) (hctx : s.cfg.ctx = .control) :
    execXchgStart steps s = .refused .xchgInControl := by
  simp only [execXchgStart, hctx]

theorem execXchgStart_of_nil {s : State} (hctx : s.cfg.ctx = .motor) :
    execXchgStart [] s = .refused .xchgNoSteps := by
  simp only [execXchgStart, hctx]

theorem execXchgStart_of_tooMany {s : State} {steps : List ExchangeStep} (hctx : s.cfg.ctx = .motor)
    (hne : steps ≠ []) (hmany : tooManySteps s.cfg steps = true) :
    execXchgStart steps s = .refused .xchgTooManySteps := by
  obtain ⟨first, rest, rfl⟩ := List.exists_cons_of_ne_nil hne
  simp only [execXchgStart, hctx, hmany, if_true]

theorem execXchgStart_of_zeroTimeout {s : State} {steps : List ExchangeStep} {st : ExchangeStep}
    (hctx : s.cfg.ctx = .motor) (hmany : tooManySteps s.cfg steps = false) (hmem : st ∈ steps)
    (hzero : st.timeout = 0) : execXchgStart steps s = .refused .xchgZeroTimeout := by
  obtain ⟨first, rest, rfl⟩ := List.exists_cons_of_ne_nil (List.ne_nil_of_mem hmem)
  have hall : (first :: rest).all ExchangeStep.ok = false :=
    List.all_eq_false.mpr ⟨st, hmem, by simp [ExchangeStep.ok, hzero]⟩
  simp [execXchgStart, hctx, hmany, hall]

theorem tooManySteps_of_lt {c : Cfg} {steps : List ExchangeStep} {m : Nat} (hmax : c.maxSteps = some m)
    (h : m < steps.length) : tooManySteps c steps = true := by
  simp [tooManySteps, hmax, h]

/-- Settles O32: one refusing branch of XCHG.START per broken precondition. -/
theorem xchgStartRefusesBrokenPreconditions : Obligations.XchgStartRefusesBrokenPreconditions := by
  intro steps s
  refine ⟨execXchgStart_of_control steps, ?noSteps, ?tooMany, ?zeroTimeout⟩
  case noSteps =>
    rintro hctx rfl
    exact execXchgStart_of_nil hctx
  case tooMany =>
    intro m hctx hne hmax hlt
    exact execXchgStart_of_tooMany hctx hne (tooManySteps_of_lt hmax hlt)
  case zeroTimeout =>
    rintro hctx hmax ⟨st, hmem, hzero⟩
    exact execXchgStart_of_zeroTimeout hctx (tooManySteps_eq_false_iff.mpr hmax) hmem hzero

/-! ### XCHG.RESPONSE and XCHG.TIMEOUT (R115 to R117, R125) -/

/-- The exchange moves on after the event `e`: the next request is sent and its timeout armed. -/
theorem advance_of_ok {s : State} {nx : ExchangeStep} (timedOut : Bool) (e : OutEvent) (hactive : s.xc.active = true)
    (hnx : s.xc.steps[s.xc.cursor + 1]? = some nx) (hopen : s.connOpen = true) (hans : nextAnswer s = .ok) :
    advance timedOut (disarm (emit e s)) =
      { takeAnswer s with
        xc := ⟨true, s.xc.steps, s.xc.cursor + 1, true, nx.timeout⟩
        out := s.out ++ [e, .tx (encodeFrame nx.request.command nx.request.payload) .ok] } := by
  rcases advance_cases timedOut (disarm (emit e s)) with ⟨st, hst, h⟩ | ⟨hnone, _⟩
  · obtain rfl : nx = st := Option.some.inj (hnx.symm.trans hst)
    rw [h.trans (sendStep_of_ok nx hopen hans)]
    simp [hactive, emit, disarm, takeAnswer]
  · simp [hnx] at hnone

/-- The exchange moves on after the event `e` and the next request's write fails: it is cancelled. -/
theorem advance_of_fail {s : State} {nx : ExchangeStep} (timedOut : Bool) (e : OutEvent)
    (hnx : s.xc.steps[s.xc.cursor + 1]? = some nx) (hopen : s.connOpen = true) (hans : nextAnswer s = .fail) :
    advance timedOut (disarm (emit e s)) =
      { takeAnswer s with
        xc := Xc.idle
        out := s.out ++ [e, .tx (encodeFrame nx.request.command nx.request.payload) .fail,
          .warn .exchangeStep (.stepIndex (s.xc.cursor + 1))] } := by
  rcases advance_cases timedOut (disarm (emit e s)) with ⟨st, hst, h⟩ | ⟨hnone, _⟩
  · obtain rfl : nx = st := Option.some.inj (hnx.symm.trans hst)
    rw [h.trans (sendStep_of_fail nx hopen hans)]
    simp [emit, disarm, takeAnswer]
  · simp [hnx] at hnone

/-- The exchange moves on after the event `e` from its last step: it is complete. -/
theorem advance_of_last {s : State} (timedOut : Bool) (e : OutEvent)
    (hlast : s.xc.steps.length = s.xc.cursor + 1) :
    advance timedOut (disarm (emit e s)) =
      { s with xc := Xc.idle, out := s.out ++ [e, .done timedOut] } := by
  rcases advance_cases timedOut (disarm (emit e s)) with ⟨st, hst, _⟩ | ⟨_, h⟩
  · simp [← hlast] at hst
  · rw [h]
    simp [emit, disarm, Xc.idle]

theorem execXchgResponse_of_current {f : Frame} {st : ExchangeStep} {s : State} (hactive : s.xc.active = true)
    (hst : s.xc.steps[s.xc.cursor]? = some st) (hf : f.command = st.request.command) :
    execXchgResponse f s = .next (resolveStep st f s) := by
  simp [execXchgResponse, currentStep, hactive, hst, hf]

/-- Settles O33: ADVANCE after the handler's event. -/
theorem xchgResponseAdvances : Obligations.XchgResponseAdvances := by
  intro f st s hactive hst hf
  have hbody : exec (.xchgResponse f) s =
      .next (advance false (disarm (emit (.handler s.xc.cursor st.handler f) s))) :=
    execXchgResponse_of_current hactive hst hf
  rw [hbody]
  exact ⟨fun _ hnx hopen hans => congrArg _ (advance_of_ok _ _ hactive hnx hopen hans),
    fun _ hnx hopen hans => congrArg _ (advance_of_fail _ _ hnx hopen hans),
    fun hlast => congrArg _ (advance_of_last _ _ hlast)⟩

theorem execXchgTimeout_of_timer {s : State} (hactive : s.xc.active = true) (harmed : s.xc.timerArmed = true) :
    execXchgTimeout s = .next (timeOutStep s) := by
  simp [execXchgTimeout, hactive, harmed]

/-- Settles O34: ADVANCE after the timeout's diagnostic. -/
theorem xchgTimeoutAdvances : Obligations.XchgTimeoutAdvances := by
  intro s hactive harmed _
  have hbody : exec .xchgTimeout s =
      .next (advance true (disarm (emit (.diag .exchangeTimeout (.stepIndex s.xc.cursor)) s))) :=
    execXchgTimeout_of_timer hactive harmed
  rw [hbody]
  exact ⟨fun _ hnx hopen hans => congrArg _ (advance_of_ok _ _ hactive hnx hopen hans),
    fun _ hnx hopen hans => congrArg _ (advance_of_fail _ _ hnx hopen hans),
    fun hlast => congrArg _ (advance_of_last _ _ hlast)⟩

/-! ### TICK and XCHG.CANCEL (R118, R120) -/

theorem exec_tick (s : State) : exec .tick s = .next (tickAfter s) := rfl

theorem tickAfter_of_disarmed {s : State} (h : s.xc.timerArmed = false) : tickAfter s = s := by
  simp [tickAfter, h]

theorem tickAfter_of_remaining {s : State} (harmed : s.xc.timerArmed = true) (hrem : 1 < s.xc.timerRem) :
    tickAfter s = { s with xc := { s.xc with timerRem := s.xc.timerRem - 1 } } := by
  simp [tickAfter, harmed, Nat.not_le.mpr hrem]

theorem tickAfter_of_last {s : State} (harmed : s.xc.timerArmed = true) (hrem : s.xc.timerRem ≤ 1) :
    tickAfter s = timeOutStep s := by
  simp [tickAfter, harmed, hrem]

/-- Settles O35: the three branches of TICK, the last the body of XCHG.TIMEOUT. -/
theorem tickCountsDown : Obligations.TickCountsDown := by
  intro s
  refine ⟨fun hoff => ?_, fun harmed hrem => ?_, fun hactive harmed hrem => ⟨?_, tickAfter s, rfl⟩⟩
  · rw [exec_tick, tickAfter_of_disarmed hoff]
  · rw [exec_tick, tickAfter_of_remaining harmed hrem]
  · rw [exec_tick, tickAfter_of_last harmed hrem]
    exact (execXchgTimeout_of_timer hactive harmed).symm

theorem matchesStep_of_inactive {s : State} (f : Frame) (h : s.xc.active = false) : matchesStep f s = false := by
  simp [matchesStep, currentStep, h]

/-- Settles O38: the record left is idle, so its timer is disarmed and no step of it is current. -/
theorem xchgCancelIsSilent : Obligations.XchgCancelIsSilent := fun _ =>
  ⟨rfl, congrArg _ (tickAfter_of_disarmed rfl), fun f => matchesStep_of_inactive f rfl⟩

/-! ### Runs of ticks (R111, R120, R121) -/

/-- A TICK always answers a next state, so a run of ticks iterates it. -/
theorem ticks_eq_iterate (n : Nat) (s : State) : ticks n s = .next (tickAfter^[n] s) := by
  induction n generalizing s with
  | zero => rfl
  | succ n ih => exact ih (tickAfter s)

/-- Short of the last one, ticks only count down. -/
theorem iterate_tickAfter_of_lt {s : State} {n : Nat} (harmed : s.xc.timerArmed = true) (hn : n < s.xc.timerRem) :
    tickAfter^[n] s = { s with xc := { s.xc with timerRem := s.xc.timerRem - n } } := by
  induction n with
  | zero => rfl
  | succ n ih =>
    have hleft : 1 < s.xc.timerRem - n := by omega
    rw [Function.iterate_succ_apply', ih (Nat.lt_of_succ_lt hn)]
    exact tickAfter_of_remaining harmed hleft

/-- A timeout does not depend on the ticks that were left: it disarms the timer. -/
theorem timeOutStep_of_timerRem (s : State) (r : Nat) :
    timeOutStep { s with xc := { s.xc with timerRem := r } } = timeOutStep s := rfl

/-- The last of the ticks left is the timeout. -/
theorem iterate_tickAfter_timerRem {s : State} (harmed : s.xc.timerArmed = true) (hrem : 1 ≤ s.xc.timerRem) :
    tickAfter^[s.xc.timerRem] s = timeOutStep s := by
  obtain ⟨n, hn⟩ := Nat.exists_eq_add_of_le' hrem
  have hleft : s.xc.timerRem - n ≤ 1 := by omega
  rw [hn, Function.iterate_succ_apply', iterate_tickAfter_of_lt harmed (by omega),
    ← timeOutStep_of_timerRem s (s.xc.timerRem - n)]
  exact tickAfter_of_last harmed hleft

/-- Settles O36: the ticks before the last count down, and the last is the timeout in the state they leave. -/
theorem timerExpiresOnItsLastTick : Obligations.TimerExpiresOnItsLastTick := by
  intro s hactive harmed hrem
  refine ⟨fun n hn => ?_, ?_⟩
  · rw [ticks_eq_iterate, iterate_tickAfter_of_lt harmed hn]
  · rw [ticks_eq_iterate, iterate_tickAfter_timerRem harmed hrem]
    exact (execXchgTimeout_of_timer hactive harmed).symm

/-- After a timeout the record is idle, or the next step waits with its whole timeout. -/
theorem timeOutStep_xc (s : State) :
    (timeOutStep s).xc = Xc.idle ∨ ∃ st, s.xc.steps[s.xc.cursor + 1]? = some st ∧
      (timeOutStep s).xc = { s.xc with cursor := s.xc.cursor + 1, timerArmed := true, timerRem := st.timeout } := by
  unfold timeOutStep
  rcases advance_cases true (disarm (raise .exchangeTimeout (.stepIndex s.xc.cursor) s)) with ⟨st, hst, h⟩ | ⟨_, h⟩
  · rw [h]
    exact (sendStep_xc st _).imp_right fun hx => ⟨st, hst, hx⟩
  · rw [h]
    exact .inl rfl

@[simp] theorem ticksLeft_idle : ticksLeft Xc.idle = 0 := rfl

/-- The timeout of the next step is among the ticks that are left. -/
theorem ticksLeft_of_next {x : Xc} {st : ExchangeStep} (h : x.steps[x.cursor + 1]? = some st) :
    ticksLeft x = x.timerRem +
      ticksLeft { x with cursor := x.cursor + 1, timerArmed := true, timerRem := st.timeout } := by
  obtain ⟨hlt, rfl⟩ := List.getElem?_eq_some_iff.mp h
  simp only [ticksLeft]
  rw [List.drop_eq_getElem_cons hlt, List.map_cons, List.sum_cons]

/-- A tick takes at least one from the ticks a waiting exchange has left (R111). -/
theorem ticksLeft_tickAfter_lt {s : State} (h : XcWaiting s.cfg s.xc) :
    ticksLeft (tickAfter s).xc < ticksLeft s.xc := by
  obtain ⟨harmed, _, _, _, _, hrem, _⟩ := h
  by_cases hlast : s.xc.timerRem ≤ 1
  · rw [tickAfter_of_last harmed hlast]
    rcases timeOutStep_xc s with hx | ⟨st, hst, hx⟩
    · rw [hx, ticksLeft_idle]
      exact Nat.add_pos_left hrem _
    · rw [hx, ticksLeft_of_next hst]
      exact Nat.lt_add_of_pos_left hrem
  · rw [tickAfter_of_remaining harmed (Nat.not_le.mp hlast)]
    simp only [ticksLeft]
    omega

theorem tickAfter_xcSound {s : State} (h : XcSound s.cfg s.xc) : XcSound (tickAfter s).cfg (tickAfter s).xc :=
  (tickAfter_frame s).cfg ▸ (tickAfter_move s).sound h

/-- A sound exchange record is idle after at most the ticks it has left: each tick keeps it sound and takes one. -/
theorem exists_iterate_tickAfter_inactive {s : State} (h : XcSound s.cfg s.xc) :
    ∃ n ≤ ticksLeft s.xc, (tickAfter^[n] s).xc.active = false := by
  induction hleft : ticksLeft s.xc using Nat.strong_induction_on generalizing s with
  | _ left ih =>
    rcases h with ⟨hidle, _⟩ | ⟨hactive, hwait⟩
    · exact ⟨0, Nat.zero_le _, hidle⟩
    · have hlt := hleft ▸ ticksLeft_tickAfter_lt hwait
      obtain ⟨n, hn, hend⟩ := ih _ hlt (tickAfter_xcSound (.inr ⟨hactive, hwait⟩)) rfl
      exact ⟨n + 1, Nat.succ_le_of_lt (hn.trans_lt hlt), hend⟩

/-- Settles O37: a waiting exchange is a sound one. -/
theorem exchangeEndsWithinItsTimeouts : Obligations.ExchangeEndsWithinItsTimeouts := by
  intro s hactive hwait
  obtain ⟨n, hn, hend⟩ := exists_iterate_tickAfter_inactive (.inr ⟨hactive, hwait⟩)
  exact ⟨n, hn, tickAfter^[n] s, ticks_eq_iterate n s, hend⟩

end Sys2Proof.Machine

/-! The connection and the receive pipeline (R129 to R139): the connection operations as equations, the candidates of
one RX one after the other, the scan of coincident words, and what an instruction may add to the output. -/

namespace Sys2Proof.Machine

/-! ### The connection operations (R129 to R133, R138) -/

theorem openAfter_of_open {s : State} (result : IoResult) (h : s.connOpen = true) :
    openAfter result s = warn .openPort .alreadyOpen s := by
  simp [openAfter, h]

theorem openAfter_of_ok {s : State} (h : s.connOpen = false) :
    openAfter .ok s = { s with connOpen := true, rb := [] } := by
  simp [openAfter, h]

theorem openAfter_of_fail {s : State} (h : s.connOpen = false) : openAfter .fail s = warn .openPort .ioError s := by
  simp [openAfter, h]

/-- Settles O39: the connection and the transport's answer decide the branch of CONN.OPEN. -/
theorem connOpenOpensOnce : Obligations.ConnOpenOpensOnce := fun _ _ _ =>
  ⟨fun hclosed => congrArg _ (openAfter_of_ok hclosed), fun hclosed => congrArg _ (openAfter_of_fail hclosed),
    fun result hopen => congrArg _ (openAfter_of_open result hopen)⟩

theorem execConnClose_of_open {s : State} (h : s.connOpen = true) :
    execConnClose s = .next { cancelExchange s with rb := [], connOpen := false } := by
  simp [execConnClose, h]

theorem execConnClose_of_closed {s : State} (h : s.connOpen = false) : execConnClose s = .next s := by
  simp [execConnClose, h]

/-- Settles O40: the two branches of CONN.CLOSE. -/
theorem connCloseCancelsAndClears : Obligations.ConnCloseCancelsAndClears := fun _ =>
  ⟨execConnClose_of_open, execConnClose_of_closed⟩

theorem execConnSend_of_open {s : State} (command : Byte) (payload : Bytes) (h : s.connOpen = true) :
    execConnSend command payload s = .next (sendAfter command payload s) := by
  simp [execConnSend, h]

theorem execConnSend_of_closed {s : State} (command : Byte) (payload : Bytes) (h : s.connOpen = false) :
    execConnSend command payload s = .next (warn .send .portClosed s) := by
  simp [execConnSend, h]

theorem sendAfter_of_ok {s : State} (command : Byte) (payload : Bytes) (hopen : s.connOpen = true)
    (hans : nextAnswer s = .ok) :
    sendAfter command payload s = emit (.tx (encodeFrame command payload) .ok) (takeAnswer s) := by
  simp [sendAfter, write_open _ hopen, hans]

theorem sendAfter_of_fail {s : State} (command : Byte) (payload : Bytes) (hopen : s.connOpen = true)
    (hans : nextAnswer s = .fail) :
    sendAfter command payload s =
      { takeAnswer s with
        out := s.out ++ [.tx (encodeFrame command payload) .fail, .warn .send (.command command)] } := by
  simp [sendAfter, write_open _ hopen, hans, warn, emit]

/-- Settles O41: the connection and the write's answer decide the branch of CONN.SEND. -/
theorem connSendWritesOneFrame : Obligations.ConnSendWritesOneFrame := by
  intro c p s
  refine ⟨fun hopen hans => ?written, fun hopen hans => ?failed, execConnSend_of_closed c p⟩
  case written => exact (execConnSend_of_open c p hopen).trans (congrArg _ (sendAfter_of_ok c p hopen hans))
  case failed => exact (execConnSend_of_open c p hopen).trans (congrArg _ (sendAfter_of_fail c p hopen hans))

theorem execRx_of_closed {s : State} (chunk : Bytes) (h : s.connOpen = false) : execRx chunk s = .next s := by
  simp [execRx, h]

/-- Settles O42: the closed branch of RX. -/
theorem rxIgnoredWhileClosed : Obligations.RxIgnoredWhileClosed := fun chunk _ => execRx_of_closed chunk

/-! ### Writing operations on a closed connection (R125, R133, R141) -/

theorem sendAck_of_closed {s : State} (command : Byte) (payload : Bytes) (h : s.connOpen = false) :
    sendAck command payload s = (.fail, warn .ack (.command command) s) := by
  simp [sendAck, write_closed _ h]

theorem ctrlTelemetryAfter_of_closed {s : State} (h : s.connOpen = false) :
    ctrlTelemetryAfter s = warn .ack (.command 0x21) s := by
  simp only [ctrlTelemetryAfter, sendAck_of_closed _ _ h]
  rfl

theorem sendStep_of_closed {s : State} (st : ExchangeStep) (h : s.connOpen = false) :
    sendStep st s = cancelExchange (warn .exchangeStep (.stepIndex s.xc.cursor) s) := by
  simp [sendStep, write_closed _ h]

/-- The exchange moves on after the event `e` and the connection is closed: it is cancelled. -/
theorem advance_of_closed {s : State} {nx : ExchangeStep} (timedOut : Bool) (e : OutEvent)
    (hnx : s.xc.steps[s.xc.cursor + 1]? = some nx) (hclosed : s.connOpen = false) :
    advance timedOut (disarm (emit e s)) =
      { s with xc := Xc.idle, out := s.out ++ [e, .warn .exchangeStep (.stepIndex (s.xc.cursor + 1))] } := by
  rcases advance_cases timedOut (disarm (emit e s)) with ⟨st, _, h⟩ | ⟨hnone, _⟩
  · rw [h.trans (sendStep_of_closed st hclosed)]
    simp [emit, disarm, warn, cancelExchange]
  · simp [hnx] at hnone

/-- A CONTROL row that is one DISP.ACK only warns on a closed connection (R141). -/
theorem exec_of_sendAck_closed {i : Instr} {command : Byte} {payload : Bytes} {s : State}
    (h : exec i s = .next (sendAck command payload s).2) (hclosed : s.connOpen = false) :
    exec i s = .next { s with out := s.out ++ [.warn .ack (.command command)] } := by
  rw [h, sendAck_of_closed command payload hclosed]
  rfl

/-- Settles O20: ADVANCE and DISP.ACK on a closed connection. -/
theorem writesOnClosedPortOnlyWarn : Obligations.WritesOnClosedPortOnlyWarn := by
  refine ⟨?exchange, ?rows⟩
  case exchange =>
    intro f st nx s hclosed hactive hst hnx
    refine ⟨fun hf => ?_, fun harmed => ?_⟩
    · exact (execXchgResponse_of_current hactive hst hf).trans (congrArg _ (advance_of_closed _ _ hnx hclosed))
    · exact (execXchgTimeout_of_timer hactive harmed).trans (congrArg _ (advance_of_closed _ _ hnx hclosed))
  case rows =>
    intro p s hclosed
    exact ⟨exec_of_sendAck_closed rfl hclosed, exec_of_sendAck_closed rfl hclosed,
      exec_of_sendAck_closed rfl hclosed, exec_of_sendAck_closed rfl hclosed, exec_of_sendAck_closed rfl hclosed,
      congrArg _ (ctrlTelemetryAfter_of_closed hclosed)⟩

/-! ### The candidates of one RX (R135, R136) -/

theorem two_le_payload_length {raw : Bytes} {f : Frame} (h : decodeFrame raw = .ok f) : 2 ≤ f.payload.length :=
  (decodeFrame_ok_iff_wire_image.mp h).1

theorem process_completes (raw : Bytes) (s : State) : ∃ t, process raw s = .next t ∧ t.ret = s.ret := by
  cases hd : decodeFrame raw with
  | error e => exact ⟨_, process_of_error s hd, rfl⟩
  | ok f =>
    rw [process_of_ok s hd]
    exact execDispDispatch_completes (emit (.frame f) s) (two_le_payload_length hd)

theorem processAll_cons_of_next {raw : Bytes} {s t : State} (rest : List Bytes) (h : process raw s = .next t) :
    processAll (raw :: rest) s = processAll rest t := by
  simp [processAll, h, andThen]

theorem processAll_completes (cands : List Bytes) (s : State) :
    ∃ t, processAll cands s = .next t ∧ t.ret = s.ret := by
  induction cands generalizing s with
  | nil => exact ⟨s, rfl, rfl⟩
  | cons raw rest ih =>
    obtain ⟨u, hu, hret⟩ := process_completes raw s
    obtain ⟨t, ht, hrest⟩ := ih u
    exact ⟨t, (processAll_cons_of_next rest hu).trans ht, hrest.trans hret⟩

/-- Settles O44: every candidate completes, and the candidates leave the components of `BlockFrame` alone. -/
theorem rxCompletes : Obligations.RxCompletes := by
  intro chunk s hopen hcap
  obtain ⟨t, ht, hret⟩ := processAll_completes (feed s.rb chunk).1 { s with rb := (feed s.rb chunk).2 }
  have hframe := processAll_blockFrame ht
  exact ⟨t, (execRx_of_within hopen hcap).trans ht, hframe.rb, hframe.connOpen.trans hopen, hframe.cfg, hret,
    hframe.inbox⟩

theorem processAll_cons_of_error {raw : Bytes} {e : FrameError} (rest : List Bytes) (s : State)
    (h : decodeFrame raw = .error e) :
    processAll (raw :: rest) s = processAll rest (raise (errorClassOf e) (.candidate raw) s) :=
  processAll_cons_of_next rest (process_of_error s h)

theorem processAll_cons_of_ok {raw : Bytes} {f : Frame} (rest : List Bytes) (s : State)
    (h : decodeFrame raw = .ok f) :
    ∃ u, execDispDispatch f (emit (.frame f) s) = .next u ∧ processAll (raw :: rest) s = processAll rest u := by
  obtain ⟨u, hu, _⟩ := execDispDispatch_completes (emit (.frame f) s) (two_le_payload_length h)
  exact ⟨u, hu, processAll_cons_of_next rest ((process_of_ok s h).trans hu)⟩

/-- Settles O43: the equations of PROCESS over the candidates that the feed yields, and the tables of R141 to R145. -/
theorem rxProcessesACandidate : Obligations.RxProcessesACandidate := by
  refine ⟨?rx, fun _ => rfl, fun _ rest _ u => processAll_cons_of_error rest u,
    fun _ rest _ u => processAll_cons_of_ok rest u, ⟨rfl, rfl, rfl, rfl⟩,
    ⟨rfl, rfl, rfl, rfl, rfl, rfl, rfl, rfl, rfl⟩, fun _ _ => rfl, fun _ _ => rfl⟩
  case rx =>
    intro chunk s hopen hcap
    have hrx : exec (.rx chunk) s = processAll (feed s.rb chunk).1 { s with rb := (feed s.rb chunk).2 } :=
      execRx_of_within hopen hcap
    refine ⟨?none, ?oneError, ?oneFrame, ?firstError, ?firstFrame⟩
    case none =>
      intro hfeed
      rw [hrx, hfeed]
      rfl
    case oneError =>
      intro raw e hfeed hraw
      rw [hrx, hfeed, processAll_cons_of_error [] _ hraw]
      rfl
    case oneFrame =>
      intro raw f hfeed hraw
      exact execRx_of_frame hopen hcap hfeed hraw
    case firstError =>
      intro raw rest e hfeed hraw
      rw [hrx, hfeed, processAll_cons_of_error rest _ hraw]
      rfl
    case firstFrame =>
      intro raw rest f hfeed hraw
      rw [hrx, hfeed]
      exact processAll_cons_of_ok rest { s with rb := (feed s.rb chunk).2 } hraw

/-! ### A received table frame (R60, R135, R137) -/

/-- The wire image of a table command has no 03 before its end when payload and checksum hold none (R49). -/
theorem trailerByte_not_mem_dropLast {c : Command} {p : Bytes} (hp : 0x03 ∉ p)
    (hsum : sum8 (frameSpan c.code p) ≠ 0x03) : 0x03 ∉ (encodeFrame c.code p).dropLast := by
  have hcode : c.code ≠ 0x03 := by cases c <;> decide
  have hparts : 0x03 ≠ c.code ∧ 0x03 ∉ p ∧ 0x03 ≠ sum8 (frameSpan c.code p) := ⟨hcode.symm, hp, hsum.symm⟩
  simpa [encodeFrame_eq, List.dropLast_cons_of_ne_nil] using hparts

/-- Settles O45: the frame comes out of the empty buffer whole and alone, and its dispatch is its row. -/
theorem rxRunsTheTableRow : Obligations.RxRunsTheTableRow := by
  intro c p s hopen hrb hlen hp hsum hcap
  have hraw : decodeFrame (encodeFrame c.code p) = .ok ⟨c.code, p⟩ := decodeFrame_encodeFrame c.code hlen
  have hfeed : feed s.rb (encodeFrame c.code p) = ([encodeFrame c.code p], []) := by
    rw [hrb]
    exact garbageIsDiscarded [] _ _ noHeader_nil hraw (trailerByte_not_mem_dropLast hp hsum)
  have hfed : { s with rb := (feed s.rb (encodeFrame c.code p)).2 } = s := by rw [hfeed, ← hrb]
  have hwithin : ∀ cap, s.cfg.rbCap = some cap → s.rb.length + (encodeFrame c.code p).length ≤ cap := by
    simpa [hrb] using hcap
  have hrx := execRx_of_frame hopen hwithin (congrArg Prod.fst hfeed) hraw
  rw [hfed] at hrx
  exact hrx.trans (execDispDispatch_eq_exec_frameRow _ (Command.ofByte_code c))

/-! ### Coincident words (R139, R155) -/

/-- The word taken stands behind words of lower priority and before words of no higher one. -/
theorem pickFirst_splits {batch others : List InWord} {w : InWord} (h : pickFirst batch = some (w, others)) :
    ∃ a b, batch = a ++ w :: b ∧ others = a ++ b ∧ (∀ x ∈ a, priority w < priority x) ∧
      (∀ x ∈ b, priority w ≤ priority x) := by
  induction batch generalizing w others with
  | nil => cases h
  | cons v vs ih =>
    simp only [pickFirst] at h
    split at h
    case h_1 hnone =>
      cases h
      exact ⟨[], [], by rw [pickFirst_eq_none hnone, List.nil_append], rfl, nofun, nofun⟩
    case h_2 u rest hsome =>
      obtain ⟨a, b, rfl, rfl, ha, hb⟩ := ih hsome
      split at h
      case isTrue hle =>
        cases h
        refine ⟨[], a ++ u :: b, rfl, rfl, nofun, fun x hx => hle.trans ?_⟩
        rcases List.mem_append.mp hx with hx | hx
        · exact (ha x hx).le
        · rcases List.mem_cons.mp hx with rfl | hx
          · exact le_rfl
          · exact hb x hx
      case isFalse hlt =>
        cases h
        exact ⟨v :: a, b, rfl, rfl, List.forall_mem_cons.mpr ⟨not_le.mp hlt, ha⟩, hb⟩

theorem fetch_of_pickFirst {s : State} {batch others : List InWord} {later : List (List InWord)} {w : InWord}
    (hinbox : s.inbox = batch :: later) (h : pickFirst batch = some (w, others)) :
    fetch s = some (w, { s with inbox := if others = [] then later else others :: later }) := by
  cases others <;> simp [fetch, fetchFrom, hinbox, h]

/-- Settles O58: the scan of one instant, its place in the inbox, and the priorities of the input codes. -/
theorem coincidentEventsAreTakenByPriority : Obligations.CoincidentEventsAreTakenByPriority := by
  refine ⟨fun _ _ _ => pickFirst_splits, fun _ _ _ _ _ => fetch_of_pickFirst, fun _ _ _ _ _ _ _ _ => ?priorities⟩
  case priorities => simp [encode, priority]

/-! ### What an instruction may add to the output (R115 to R117, R134) -/

/-- The output grew by transmissions only if `sending` and by exchange notices only if `noticing`. -/
def Adds (sending noticing : Prop) (s t : State) : Prop :=
  ∃ new, t.out = s.out ++ new ∧ ∀ e ∈ new, (IsTx e = true → sending) ∧ (IsExchangeNotice e = true → noticing)

section
variable {sending noticing : Prop} {s t u : State}

theorem Adds.of_eq (h : t.out = s.out) : Adds sending noticing s t := ⟨[], by rw [h, List.append_nil], nofun⟩

theorem Adds.trans (h : Adds sending noticing s t) (k : Adds sending noticing t u) : Adds sending noticing s u := by
  obtain ⟨a, hout, ha⟩ := h
  obtain ⟨b, kout, hb⟩ := k
  exact ⟨a ++ b, by rw [kout, hout, List.append_assoc], List.forall_mem_append.mpr ⟨ha, hb⟩⟩

theorem Adds.mono {sending' noticing' : Prop} (h : Adds sending noticing s t) (hsend : sending → sending')
    (hnotice : noticing → noticing') : Adds sending' noticing' s t := by
  obtain ⟨new, hout, hnew⟩ := h
  exact ⟨new, hout, fun e he => ⟨hsend ∘ (hnew e he).1, hnotice ∘ (hnew e he).2⟩⟩

theorem Adds.countP_tx_eq (h : Adds False noticing s t) : t.out.countP IsTx = s.out.countP IsTx := by
  obtain ⟨new, hout, hnew⟩ := h
  rw [hout, List.countP_append, List.countP_eq_zero.mpr fun e he => (hnew e he).1, Nat.add_zero]

theorem Adds.countP_notice_eq (h : Adds sending False s t) :
    t.out.countP IsExchangeNotice = s.out.countP IsExchangeNotice := by
  obtain ⟨new, hout, hnew⟩ := h
  rw [hout, List.countP_append, List.countP_eq_zero.mpr fun e he => (hnew e he).2, Nat.add_zero]

theorem adds_of_emit (e : OutEvent) (hout : t.out = s.out ++ [e]) (hsend : IsTx e = true → sending)
    (hnotice : IsExchangeNotice e = true → noticing) : Adds sending noticing s t :=
  ⟨[e], hout, List.forall_mem_singleton.mpr ⟨hsend, hnotice⟩⟩

theorem warn_adds (o : TransportOp) (d : WarnDetail) (s : State) : Adds sending noticing s (warn o d s) :=
  adds_of_emit _ rfl nofun nofun

theorem display_adds (d : DisplayUpdate) (s : State) : Adds sending noticing s (display d s) :=
  adds_of_emit _ rfl nofun nofun

theorem tx_adds (b : Bytes) (r : IoResult) (h : sending) : Adds sending noticing s (emit (.tx b r) (takeAnswer s)) :=
  adds_of_emit _ rfl (fun _ => h) nofun

end

theorem raise_adds {sending noticing : Prop} {c : ErrorClass} (hc : c ≠ .exchangeTimeout) (d : DiagInfo) (s : State) :
    Adds sending noticing s (raise c d s) :=
  adds_of_emit _ rfl nofun fun h => absurd (by simpa [IsExchangeNotice] using h) hc

theorem showLight_adds {sending noticing : Prop} (code : Byte) (s : State) :
    Adds sending noticing s (showLight code s) := by
  rcases showLight_cases code s with ⟨c, _, h⟩ | ⟨_, h⟩ <;> rw [h]
  · exact display_adds _ s
  · exact raise_adds (by decide) _ s

theorem showTelemetry_adds {sending noticing : Prop} (v : Telemetry) (s : State) :
    Adds sending noticing s (showTelemetry v s) := by
  have hfields : Adds sending noticing s { s with ds := s.ds.withTelemetry v, out := s.out ++ fieldEvents v } :=
    ⟨fieldEvents v, rfl, by simp [fieldEvents, IsTx, IsExchangeNotice]⟩
  rw [showTelemetry_eq]
  exact hfields.trans (showLight_adds _ _)

/-- A write and the warning of its failure are no notices; the write is on an open connection (R91). -/
theorem sendAck_adds {noticing : Prop} (command : Byte) (payload : Bytes) (s : State) :
    Adds (s.connOpen = true) noticing s (sendAck command payload s).2 := by
  rcases sendAck_cases command payload s with ⟨ho, _, h⟩ | ⟨ho, _, h⟩ | ⟨_, h⟩ <;> rw [h]
  · exact tx_adds _ _ ho
  · exact (tx_adds _ _ ho).trans (warn_adds _ _ _)
  · exact warn_adds _ _ s

theorem ctrlTelemetryAfter_adds {noticing : Prop} (s : State) :
    Adds (s.connOpen = true) noticing s (ctrlTelemetryAfter s) := by
  have hack := sendAck_adds (noticing := noticing) 0x21 (telemetryPayload (synTelemetry s.cfg)) s
  rcases ctrlTelemetryAfter_cases s with h | h <;> rw [h]
  · exact hack
  · exact hack.trans (showLight_adds _ _)

theorem execConnSend_adds {noticing : Prop} {command : Byte} {payload : Bytes} {s t : State}
    (h : execConnSend command payload s = .next t) : Adds (s.connOpen = true) noticing s t := by
  cases hopen : s.connOpen with
  | false =>
    rw [execConnSend_of_closed command payload hopen] at h
    cases h
    exact warn_adds _ _ s
  | true =>
    rw [execConnSend_of_open command payload hopen] at h
    cases h
    cases hans : nextAnswer s with
    | ok =>
      rw [sendAfter_of_ok command payload hopen hans]
      exact tx_adds _ _ rfl
    | fail =>
      rw [sendAfter_of_fail command payload hopen hans]
      exact (tx_adds (encodeFrame command payload) .fail rfl).trans
        (adds_of_emit (.warn .send (.command command)) (by simp) nofun nofun)

theorem openAfter_adds {sending noticing : Prop} (result : IoResult) (s : State) :
    Adds sending noticing s (openAfter result s) := by
  cases hopen : s.connOpen with
  | true =>
    rw [openAfter_of_open result hopen]
    exact warn_adds _ _ s
  | false =>
    cases result with
    | ok => exact .of_eq (by rw [openAfter_of_ok hopen])
    | fail =>
      rw [openAfter_of_fail hopen]
      exact warn_adds _ _ s

theorem sendStep_adds {noticing : Prop} (st : ExchangeStep) (s : State) :
    Adds (s.connOpen = true) noticing s (sendStep st s) := by
  rcases sendStep_cases st s with ⟨ho, _, h⟩ | ⟨ho, _, h⟩ | ⟨_, h⟩ <;> rw [h]
  · exact tx_adds _ _ ho
  · exact (tx_adds _ _ ho).trans (warn_adds _ _ _)
  · exact warn_adds _ _ s

theorem startExchange_adds {noticing : Prop} (first : ExchangeStep) (steps : List ExchangeStep) (s : State) :
    Adds (s.connOpen = true) noticing s (startExchange first steps s) := by
  rcases startExchange_cases first steps s with ⟨_, x, _, h⟩ | ⟨_, armed, rem, h⟩ <;> rw [h]
  · exact warn_adds _ _ { s with xc := x }
  · exact sendStep_adds first { s with xc := ⟨true, steps, 0, armed, rem⟩ }

/-- The notice that resolves or times out a step, then ADVANCE (R115 to R117). -/
theorem advance_adds {noticing : Prop} (timedOut : Bool) (e : OutEvent) (s : State) (he : IsTx e = false)
    (hnotice : noticing) : Adds (s.connOpen = true) noticing s (advance timedOut (disarm (emit e s))) := by
  have hfirst : Adds (s.connOpen = true) noticing s (disarm (emit e s)) :=
    adds_of_emit e rfl (fun h => absurd h (by simp [he])) fun _ => hnotice
  refine hfirst.trans ?_
  rcases advance_cases timedOut (disarm (emit e s)) with ⟨st, _, h⟩ | ⟨_, h⟩ <;> rw [h]
  · exact sendStep_adds st { disarm (emit e s) with xc := { (disarm (emit e s)).xc with cursor := s.xc.cursor + 1 } }
  · exact adds_of_emit (.done timedOut) rfl nofun fun _ => hnotice

/-- What one operation may add: a transmission on an open connection only, an exchange notice only when the exchange
record is not the idle one. -/
def Emits (s t : State) : Prop := Adds (s.connOpen = true) (s.xc ≠ Xc.idle) s t

theorem XcMove.of_idle {x : Xc} (h : XcMove Xc.idle x) : x = Xc.idle := by
  cases h with
  | stay | ended => rfl
  | countDown harmed => cases harmed
  | stepOn st hst => cases hst

theorem RowEffect.keeps_idle {s t : State} (h : RowEffect s t) (hidle : s.xc = Xc.idle) : t.xc = Xc.idle :=
  (hidle ▸ h.move).of_idle

theorem Emits.trans {s t u : State} (h : Emits s t) (heff : RowEffect s t) (k : Emits t u) : Emits s u :=
  Adds.trans h (k.mono (heff.connOpen ▸ id) fun hne hidle => hne (heff.keeps_idle hidle))

theorem route_emits (f : Frame) (s : State) : Emits s (route f s) := by
  rcases route_cases f s with ⟨st, hst, _, h⟩ | ⟨_, h⟩ <;> rw [h]
  · have hne : s.xc ≠ Xc.idle := fun hidle => by simp [currentStep, hidle, Xc.idle] at hst
    exact advance_adds false _ s rfl hne
  · exact Adds.of_eq rfl

theorem tickAfter_emits (s : State) : Emits s (tickAfter s) := by
  by_cases hidle : s.xc = Xc.idle
  · rw [tickAfter_of_disarmed (by rw [hidle]; rfl)]
    exact Adds.of_eq rfl
  · rcases tickAfter_cases s with h | h | ⟨_, _, h⟩ <;> rw [h]
    · exact Adds.of_eq rfl
    · exact advance_adds true _ s rfl hidle
    · exact Adds.of_eq rfl

theorem exec_frameRow_emits {ctx : Ctx} {c : Command} {p : Bytes} {s t : State}
    (h : exec (frameRow ctx c p) s = .next t) : Emits s t := by
  cases ctx with
  | control =>
    cases c with
    | stop | run | setSpeed | gear | version =>
      cases h
      exact sendAck_adds _ _ s
    | telemetry =>
      cases h
      exact ctrlTelemetryAfter_adds s
  | motor =>
    cases c with
    | stop | run | setSpeed =>
      cases h
      exact route_emits _ s
    | gear =>
      obtain ⟨a, b, rfl⟩ := execMotorGear_next h
      exact Emits.trans (display_adds _ s) (display_quiet _ s).rowEffect (route_emits _ _)
    | version =>
      cases h
      exact Emits.trans (display_adds _ s) (display_quiet _ s).rowEffect (route_emits _ _)
    | telemetry =>
      rcases execMotorTelemetry_cases h with rfl | ⟨v, rfl⟩
      · exact raise_adds (by decide) _ s
      · exact Emits.trans (showTelemetry_adds v s) (showTelemetry_quiet v s).rowEffect (route_emits _ _)

theorem execDispDispatch_emits {f : Frame} {s t : State} (h : execDispDispatch f s = .next t) : Emits s t := by
  cases hc : Command.ofByte f.command with
  | none =>
    rw [execDispDispatch_of_unassigned s hc] at h
    cases h
    exact raise_adds (by decide) _ s
  | some c =>
    rw [execDispDispatch_eq_exec_frameRow s hc] at h
    exact exec_frameRow_emits h

theorem errorClassOf_ne_exchangeTimeout (e : FrameError) : errorClassOf e ≠ .exchangeTimeout := by
  cases e <;> decide

theorem process_emits {raw : Bytes} {s t : State} (h : process raw s = .next t) : Emits s t := by
  cases hd : decodeFrame raw with
  | error e =>
    rw [process_of_error s hd] at h
    cases h
    exact raise_adds (errorClassOf_ne_exchangeTimeout e) _ s
  | ok f =>
    rw [process_of_ok s hd] at h
    have hframe : Emits s (emit (.frame f) s) := adds_of_emit _ rfl nofun nofun
    exact hframe.trans (emit_quiet _ s).rowEffect (execDispDispatch_emits h)

theorem execRx_keeps_idle {chunk : Bytes} {s t : State} (h : execRx chunk s = .next t) (hidle : s.xc = Xc.idle) :
    t.xc = Xc.idle := by
  rcases execRx_cases h with rfl | ⟨_, _, hp⟩
  · exact hidle
  · exact processAll_induction (P := fun u => u.xc = Xc.idle) (fun _ _ _ h1 => (process_effect h1).keeps_idle) hp hidle

theorem processAll_emits {cands : List Bytes} {s t : State} (h : processAll cands s = .next t) : Emits s t := by
  induction cands generalizing s with
  | nil =>
    cases h
    exact Adds.of_eq rfl
  | cons raw rest ih =>
    obtain ⟨u, hu, hrest⟩ := andThen_next h
    exact (process_emits hu).trans (process_effect hu) (ih hrest)

theorem execRx_emits {chunk : Bytes} {s t : State} (h : execRx chunk s = .next t) : Emits s t := by
  rcases execRx_cases h with rfl | ⟨_, _, hp⟩
  · exact Adds.of_eq rfl
  · have hcands : Emits { s with rb := (feed s.rb chunk).2 } t := processAll_emits hp
    exact hcands

theorem execXchgResponse_emits {f : Frame} {s t : State} (h : execXchgResponse f s = .next t) : Emits s t := by
  cases hm : matchesStep f s with
  | false => simp [execXchgResponse_of_no_match hm] at h
  | true =>
    rw [execXchgResponse_of_match hm] at h
    cases h
    exact route_emits f s

theorem execXchgTimeout_emits {s t : State} (h : execXchgTimeout s = .next t) : Emits s t := by
  by_cases hidle : s.xc = Xc.idle
  · simp [execXchgTimeout_of_no_timer (s := s) (.inl (by rw [hidle]; rfl))] at h
  · rw [execXchgTimeout_next h]
    exact advance_adds true _ s rfl hidle

/-- Every instruction but RESET, which empties the output: a FRAME row by its context, every EVENT row by what its
operation emits. -/
theorem exec_emits {i : Instr} {s t : State} (h : exec i s = .next t) (hreset : i.isReset = false) : Emits s t := by
  cases hrow : i.context with
  | some ctx =>
    obtain ⟨c, p, rfl⟩ := Instr.eq_frameRow_of_context hrow
    exact exec_frameRow_emits h
  | none =>
    cases i with
    | reset _ => cases hreset
    | connOpen _ _ result =>
      cases h
      exact openAfter_adds result s
    | connClose => rcases execConnClose_cases h with rfl | rfl <;> exact Adds.of_eq rfl
    | rx _ => exact execRx_emits h
    | connSend _ _ => exact execConnSend_adds h
    | xchgStart steps =>
      obtain ⟨_, _, _, first, _, _, rfl⟩ := execXchgStart_next h
      exact startExchange_adds first steps s
    | tick =>
      cases h
      exact tickAfter_emits s
    | cksumCompute _ | codecEncode _ _ | xchgCancel =>
      cases h
      exact Adds.of_eq rfl
    | codecDecode _ =>
      obtain ⟨v, rfl⟩ := execCodecDecode_next h
      exact Adds.of_eq rfl
    | rsmFeed _ =>
      rw [execRsmFeed_next h]
      exact Adds.of_eq rfl
    | dispDispatch _ => exact execDispDispatch_emits h
    | xchgResponse _ => exact execXchgResponse_emits h
    | xchgTimeout => exact execXchgTimeout_emits h
    | _ => cases hrow

theorem exec_out_of_reset {i : Instr} {s t : State} (h : exec i s = .next t) (hreset : i.isReset = true) :
    t.out = [] := by
  cases i with
  | reset c =>
    cases h
    rfl
  | _ => cases hreset

/-- Settles O55: RESET empties the output, and no other instruction sends while the connection is closed. -/
theorem nothingIsSentWhileClosed : Obligations.NothingIsSentWhileClosed := by
  intro i s t hclosed h
  cases hreset : i.isReset with
  | true => simp [exec_out_of_reset h hreset]
  | false =>
    have hsilent : Adds False (s.xc ≠ Xc.idle) s t := (exec_emits h hreset).mono (by simp [hclosed]) id
    exact hsilent.countP_tx_eq.le

/-! ### After a close (R118, R131, R178) -/

theorem XcSound.eq_idle {c : Cfg} {x : Xc} (h : XcSound c x) (hinactive : x.active = false) : x = Xc.idle := by
  rcases h with ⟨_, hsteps, hcursor, harmed, hrem⟩ | ⟨hactive, _⟩
  · cases x
    simp_all [Xc.idle]
  · simp [hinactive] at hactive

theorem execConnClose_idle {s t : State} (hs : BlockSound s) (h : execConnClose s = .next t) :
    t.xc = Xc.idle ∧ t.cfg = s.cfg := by
  cases hopen : s.connOpen with
  | true =>
    rw [execConnClose_of_open hopen] at h
    cases h
    exact ⟨rfl, rfl⟩
  | false =>
    rw [execConnClose_of_closed hopen] at h
    cases h
    exact ⟨hs.xcSound.eq_idle (xc_inactive_of_closed hs hopen), rfl⟩

/-- Only XCHG.START takes the exchange record out of the idle state (R111). -/
theorem exec_keeps_idle {i : Instr} {s t : State} (h : exec i s = .next t) (hstart : i.isStart = false)
    (hidle : s.xc = Xc.idle) : t.xc = Xc.idle := by
  cases hrx : i.isRx with
  | false => exact (hidle ▸ exec_move h hstart hrx).of_idle
  | true =>
    cases i with
    | rx chunk => exact execRx_keeps_idle h hidle
    | _ => cases hrx

theorem exec_idle_notices_le {i : Instr} {s t : State} (h : exec i s = .next t) (hidle : s.xc = Xc.idle) :
    t.out.countP IsExchangeNotice ≤ s.out.countP IsExchangeNotice := by
  cases hreset : i.isReset with
  | true => simp [exec_out_of_reset h hreset]
  | false =>
    have hquiet : Adds (s.connOpen = true) False s t := (exec_emits h hreset).mono id (absurd hidle)
    exact hquiet.countP_notice_eq.le

/-- In the MOTOR context without an exchange, transmissions come from CONN.SEND and XCHG.START only (R89, R132). -/
theorem exec_motor_idle_tx_eq {i : Instr} {s t : State} (h : exec i s = .next t) (hctx : s.cfg.ctx = .motor)
    (hidle : s.xc = Xc.idle) (hinput : i.isInput = true) (hstart : i.isStart = false) (hreset : i.isReset = false)
    (hsend : i.isSend = false) : t.out.countP IsTx = s.out.countP IsTx := by
  cases i with
  | reset _ => cases hreset
  | connOpen _ _ result =>
    cases h
    exact (openAfter_adds (noticing := False) result s).countP_tx_eq
  | connClose => rcases execConnClose_cases h with rfl | rfl <;> rfl
  | rx chunk => exact (idleMotorNeverTransmitsOnReceive chunk s t hctx (by rw [hidle]; rfl) h).2
  | connSend _ _ => cases hsend
  | xchgStart _ => cases hstart
  | tick =>
    cases h
    rw [tickAfter_of_disarmed (by rw [hidle]; rfl)]
  | _ => cases hinput

/-- What stays true of the states `u` after the state `t` that a close left (R131). -/
structure QuietAfter (t u : State) : Prop where
  idle : u.xc = Xc.idle
  notices : u.out.countP IsExchangeNotice ≤ t.out.countP IsExchangeNotice

/-- What stays true besides in the MOTOR context. -/
structure SilentAfter (t u : State) : Prop where
  motor : u.cfg.ctx = .motor
  idle : u.xc = Xc.idle
  sent : u.out.countP IsTx = t.out.countP IsTx

theorem QuietAfter.exec {i : Instr} {t u v : State} (hu : QuietAfter t u) (h : exec i u = .next v)
    (hstart : i.isStart = false) : QuietAfter t v :=
  ⟨exec_keeps_idle h hstart hu.idle, (exec_idle_notices_le h hu.idle).trans hu.notices⟩

theorem SilentAfter.exec {i : Instr} {t u v : State} (hu : SilentAfter t u) (h : exec i u = .next v)
    (hinput : i.isInput = true) (hstart : i.isStart = false) (hreset : i.isReset = false) (hsend : i.isSend = false) :
    SilentAfter t v := by
  obtain ⟨hcfg, _⟩ := stateIsTouchedByItsOperationsOnly i u v h
  exact ⟨hcfg hreset ▸ hu.motor, exec_keeps_idle h hstart hu.idle,
    (exec_motor_idle_tx_eq h hu.motor hu.idle hinput hstart hreset hsend).trans hu.sent⟩

/-- Settles O52: the close leaves the idle record, and every later event keeps `QuietAfter` and, in the MOTOR
context, `SilentAfter`. -/
theorem nothingFiresAfterClose : Obligations.NothingFiresAfterClose := by
  intro s t u events hs hclose hevents hrun
  obtain ⟨hidle, hcfg⟩ := execConnClose_idle hs hclose
  have hquiet : QuietAfter t u := by
    refine runEvents_induction (fun i hi _ _ h hv => ?_) hrun ⟨hidle, le_rfl⟩
    obtain ⟨_, hstart⟩ := hevents i hi
    exact hv.exec h hstart
  refine ⟨hquiet.idle, hquiet.notices, fun hctx hsilent => ?_⟩
  have hsilentAfter : SilentAfter t u := by
    refine runEvents_induction (fun i hi _ _ h hv => ?_) hrun ⟨hcfg ▸ hctx, hidle, rfl⟩
    obtain ⟨hinput, hstart⟩ := hevents i hi
    obtain ⟨hreset, hsend⟩ := hsilent i hi
    exact hv.exec h hinput hstart hreset hsend
  exact hsilentAfter.sent

end Sys2Proof.Machine

/-! Reset and the interior trailer byte (R166, R167, R171): what RESET leaves, and a valid frame cut at an 03 before
its end. -/

namespace Sys2Proof.Machine

/-! ### RESET (R166, R167) -/

/-- Settles O48: RESET's one branch, with `Xc.idle` and `Ds.blank` written out, is the statement's record. -/
theorem resetIsTotal : Obligations.ResetIsTotal := fun _ _ => rfl

/-! ### The interior trailer byte (R83, R171) -/

/-- R83: a candidate ends at its first 03. -/
theorem candidate_dropLast_no_trailerByte {rb chunk cand : Bytes} (h : cand ∈ (feed rb chunk).1) :
    0x03 ∉ cand.dropLast := by
  obtain ⟨_, hframed⟩ := candidatesAreFramed rb chunk
  obtain ⟨_, _, m, rfl, hm⟩ := hframed cand h
  rwa [List.dropLast_concat]

/-- No byte of the header is 03, so the first 03 of all is the first one behind the header. -/
theorem find_first_trailer_eq_some {y : Bytes} (z : Bytes) (hy : 0x03 ∉ y) :
    find (0x10 :: 0x02 :: (y ++ 0x03 :: z)) 0x03 0 = some (y.length + 2) := by
  obtain ⟨_, hbyte, hbefore⟩ := find_eq_some_iff.mp (find_trailer_eq_some z hy)
  refine find_eq_some_iff.mpr ⟨Nat.zero_le _, hbyte, fun j _ hlt => ?_⟩
  cases j with
  | zero => simp
  | succ j => exact hbefore (j + 1) (Nat.le_add_left 1 j) hlt

/-- R83, R84: what begins with the header and has its first 03 at index 3 or later is cut behind that 03. -/
theorem first_candidate_of_first_trailer {x : Bytes} {e : Nat} (h03 : 0x03 ∈ x)
    (he : find (0x10 :: 0x02 :: x) 0x03 0 = some e) (h3 : 3 ≤ e) :
    ∃ rest, (feed [] (0x10 :: 0x02 :: x)).1 = (0x10 :: 0x02 :: x).take (e + 1) :: rest := by
  obtain ⟨y, z, rfl, hy⟩ := List.eq_append_cons_of_mem h03
  obtain rfl : y.length + 2 = e := Option.some.inj ((find_first_trailer_eq_some z hy).symm.trans he)
  have hne : y ≠ [] := List.length_pos_iff.mp (by omega)
  have htake : (0x10 :: 0x02 :: (y ++ 0x03 :: z)).take (y.length + 2 + 1) = 0x10 :: 0x02 :: (y ++ [0x03]) := by
    simp [List.take_append]
  refine ⟨(feed [] z).1, ?_⟩
  calc (feed [] (0x10 :: 0x02 :: (y ++ 0x03 :: z))).1
    _ = candidatesOf y ++ (feed [] z).1 := candidates_of_trailer (g := []) z noHeader_nil hy
    _ = (0x10 :: 0x02 :: (y ++ 0x03 :: z)).take (y.length + 2 + 1) :: (feed [] z).1 := by
      rw [candidatesOf_of_ne_nil hne, htake, List.singleton_append]

/-- Settles O16: a candidate has no 03 before its end, and a valid frame begins with the header and ends
in 03. -/
theorem interiorTrailerTruncates : Obligations.InteriorTrailerTruncates := by
  intro raw f h h03
  refine ⟨fun hwhole => candidate_dropLast_no_trailerByte hwhole h03, fun e he h3 => ?_⟩
  obtain ⟨_, rfl⟩ := decodeFrame_ok_iff_wire_image.mp h
  rw [encodeFrame_eq] at he ⊢
  exact first_candidate_of_first_trailer (by simp) he h3

end Sys2Proof.Machine
